-- ==== Sys2Proof/Word.lean ====
section
/-! DEFINITION. The words of the BX816 as software sees them on the link (R186): bytes, little-endian numbers and
stamps, and the numbers of its units (00_scope.md, Capacities). -/

namespace Sys2Proof

/-- One byte of a frame (R162). -/
abbrev Byte := BitVec 8
/-- A 2-byte field (R186). -/
abbrev Word16 := BitVec 16
/-- A 4-byte field: periods, offsets, widths, timeouts, epochs, journal numbers (R186). -/
abbrev Word32 := BitVec 32
/-- A value of the 48-bit timeline, and any sum or difference of such values (R106, R107, R186). -/
abbrev Stamp := BitVec 48
/-- A set of lines: bit n stands for Ln (R186). -/
abbrev LineSet := BitVec 16
/-- A set of triggers: bit k stands for Kk (R186). -/
abbrev TriggerSet := BitVec 4

/-- T0 to T7. -/
abbrev TrackId := Fin 8
/-- Page ids 0 to 63. -/
abbrev PageId := Fin 64
/-- L0 to L15. -/
abbrev LineId := Fin 16
/-- K0 to K3. -/
abbrev TriggerId := Fin 4

end Sys2Proof
end

