-- ==== Sys2Proof/Syntax.lean ====
section
/-! DEFINITION. The commands: one constructor per row of spec/opcode_table.json, with the operands of its row. A request
carries its frame's tag and the payload fields of R187, reserved and unused bytes included, as raw as the frame carries
them: an id or a code outside its range is answered by the part, not shut out here. -/

namespace Sys2Proof

/-- A step record of Append Steps as the frame carries it, 12 bytes (R189). -/
structure StepRecord where
  kind : Byte
  flags : Byte
  offset : Word32
  lines : LineSet
  argument : Word32
  deriving DecidableEq, Repr

/-- The steps of the part (opcode_table.json): requests taken by the dispatcher, then what happens at the link, at the
pins and on the timeline. -/
inductive Instr where
  -- requests of the session unit, the event unit and the timebase
  | identify (tag : Byte)
  | openSession (tag : Byte) (keepalive : Word16)
  | closeSession (tag : Byte)
  | ping (tag : Byte) (payload : List Byte)
  | resetPart (tag : Byte)
  | ackEvents (tag : Byte) (seq : Word16)
  | replayEvents (tag : Byte) (seq : Word16)
  | readTime (tag : Byte)
  | setTick (tag divider : Byte)
  | setReference (tag : Byte) (interval : Word32) (window : Word16)
  | readReference (tag : Byte)
  -- requests of the line stage
  | configureLine (tag line role rest filter capture : Byte)
  | readLines (tag : Byte)
  -- requests of the page pool
  | openPage (tag : Byte) (period : Word32) (repeats : Word16) (flags reserved : Byte)
  | appendSteps (tag page reserved : Byte) (records : List StepRecord)
  | sealPage (tag page : Byte)
  | discardPage (tag page : Byte)
  | readPage (tag page first : Byte)
  | readPool (tag : Byte)
  -- requests of the track units
  | configureTrack (tag track enable policy options : Byte) (group rest : LineSet)
  | queuePage (tag page track : Byte)
  | flushQueue (tag track : Byte)
  | startTrackAt (tag track options trigger : Byte) (time : Stamp) (offset : Word32)
  | startTrackAfter (tag track options trigger : Byte) (time : Stamp) (offset : Word32)
  | startTrackOnTrigger (tag track options trigger : Byte) (time : Stamp) (offset : Word32)
  | startTrackAtEpoch (tag track options trigger : Byte) (time : Stamp) (offset : Word32)
  | stopTrackAbort (tag track : Byte)
  | stopTrackEnd (tag track : Byte)
  | holdTrack (tag track : Byte)
  | releaseTrack (tag track : Byte)
  | readTrack (tag track : Byte)
  -- requests of the trigger units and the journal
  | armTrigger (tag trigger line sense count flags : Byte)
  | disarmTrigger (tag trigger : Byte)
  | readTrigger (tag trigger : Byte)
  | readJournal (tag : Byte) (ack : Word16) (maximum reserved : Byte) (wait : Word16)
  | setJournal (tag : Byte) (watermark : Word16)
  -- the link
  | badKindFrame (tag kind : Byte) (payload : List Byte)
  | byteReceived (byte : Byte)
  | gapTimeout
  | keepaliveExpiry
  | transmitNextFrame
  -- reset and start-up
  | resetPower
  | resetPin
  | resetRequest
  | startUpEnd
  -- inputs and the reference
  | inputTransition (line : LineId) (level : Bool)
  | edgeAcceptance (line : LineId)
  | referencePulse
  | missingPulseExpiry
  | firingAgeDiscard (trigger : TriggerId)
  -- the tracks' own timed actions
  | gateExpiry (track : TrackId)
  | gateResume (track : TrackId)
  | journalWaitExpiry
  | armedStartEffect (track : TrackId)
  | releaseStartEffect (track : TrackId)
  | trackActionTick (track : TrackId)
  | resetEnd (straps : BitVec 2)
  deriving DecidableEq, Repr

/-- A frame between its SYNC and LEN and its CRC: kind, tag and payload (R162). -/
structure Frame where
  kind : Byte
  tag : Byte
  payload : List Byte
  deriving DecidableEq, Repr

end Sys2Proof
end

