-- ==== Sys2Proof/Decode.lean ====
section
/-! DEFINITION. Frames and their bytes: little-endian fields (R186), the CRC and the frame (R162), the layout of every
request payload (R187, R189), read and written. The opcode table gives no row any bits, so `decodeTableWord` spells no
command; the encoding of this hardware is the frame. -/

namespace Sys2Proof

/-- A 2-byte field, least significant byte first (R186). -/
def le16 (x : Word16) : List Byte := [x.extractLsb' 0 8, x.extractLsb' 8 8]

/-- A 4-byte field, least significant byte first (R186). -/
def le32 (x : Word32) : List Byte :=
  [x.extractLsb' 0 8, x.extractLsb' 8 8, x.extractLsb' 16 8, x.extractLsb' 24 8]

/-- A 6-byte field, least significant byte first (R186). -/
def le48 (x : Stamp) : List Byte :=
  [x.extractLsb' 0 8, x.extractLsb' 8 8, x.extractLsb' 16 8, x.extractLsb' 24 8, x.extractLsb' 32 8, x.extractLsb' 40 8]

/-- The number two bytes carry, the first the least significant (R186). -/
def ofLe16 (b0 b1 : Byte) : Word16 := b1 ++ b0

/-- The number four bytes carry (R186). -/
def ofLe32 (b0 b1 b2 b3 : Byte) : Word32 := ofLe16 b2 b3 ++ ofLe16 b0 b1

/-- The stamp six bytes carry (R186). -/
def ofLe48 (b0 b1 b2 b3 b4 b5 : Byte) : Stamp := ofLe16 b4 b5 ++ ofLe32 b0 b1 b2 b3

/-- One shift of the CRC register for each of n bits: polynomial 1021h, most significant bit first (R162). -/
def crcShift : Nat → Word16 → Word16
  | 0, c => c
  | n + 1, c => crcShift n (if c.msb then (c <<< 1) ^^^ 0x1021 else c <<< 1)

/-- The CRC of a run of bytes, initial value FFFFh, no final inversion (R162). -/
def crc16 (bytes : List Byte) : Word16 :=
  bytes.foldl (fun c b => crcShift 8 (c ^^^ BitVec.shiftLeft (b.setWidth 16) 8)) 0xFFFF

/-- The bytes of a frame on the link: SYNC, LEN, KIND, TAG, payload, CRC low byte first (R162). -/
def Frame.bytes (f : Frame) : List Byte :=
  let body := BitVec.ofNat 8 (f.payload.length + 2) :: f.kind :: f.tag :: f.payload
  0xA5 :: (body ++ le16 (crc16 body))

/-- The length of the payload of a request kind that has one fixed length (R187). -/
def fixedLength : Nat → Option Nat
  | 0x01 => some 0 | 0x02 => some 2 | 0x03 => some 0 | 0x05 => some 0 | 0x06 => some 2 | 0x07 => some 2
  | 0x10 => some 0 | 0x11 => some 1 | 0x12 => some 6 | 0x13 => some 0 | 0x18 => some 5 | 0x19 => some 0
  | 0x20 => some 8 | 0x22 => some 1 | 0x23 => some 1 | 0x24 => some 2 | 0x25 => some 0
  | 0x30 => some 8 | 0x31 => some 2 | 0x32 => some 1 | 0x33 => some 14 | 0x34 => some 2 | 0x35 => some 1
  | 0x36 => some 1 | 0x37 => some 1 | 0x40 => some 5 | 0x41 => some 1 | 0x42 => some 1 | 0x48 => some 6
  | 0x49 => some 2 | _ => none

/-- The request kinds (R187): those of one length, Ping and Append Steps. -/
def isRequestKind (kind : Byte) : Bool :=
  (fixedLength kind.toNat).isSome || kind == 0x04 || kind == 0x21

/-- Whether a kind allows a payload of n bytes (R168 step 2, R187). -/
def lengthFits (kind : Byte) (n : Nat) : Bool :=
  if kind = 0x04 then decide (n ≤ 240)
  else if kind = 0x21 then decide (14 ≤ n ∧ n ≤ 230 ∧ (n - 2) % 12 = 0)
  else fixedLength kind.toNat == some n

/-- The 12 bytes of a step record (R189). -/
def StepRecord.bytes (r : StepRecord) : List Byte :=
  r.kind :: r.flags :: (le32 r.offset ++ le16 r.lines ++ le32 r.argument)

/-- The step records that a run of bytes holds; none when it is not a whole number of records (R189). -/
def StepRecord.ofBytes : List Byte → Option (List StepRecord)
  | [] => some []
  | k :: f :: o0 :: o1 :: o2 :: o3 :: l0 :: l1 :: a0 :: a1 :: a2 :: a3 :: rest =>
    (StepRecord.ofBytes rest).map
      (⟨k, f, ofLe32 o0 o1 o2 o3, ofLe16 l0 l1, ofLe32 a0 a1 a2 a3⟩ :: ·)
  | _ :: _ => none

/-- The frame that carries a request: its kind code and its payload in the order of R187. The commands that are no
frame have none. -/
def Instr.frame : Instr → Option Frame
  | .identify tag => some ⟨0x01, tag, []⟩
  | .openSession tag keepalive => some ⟨0x02, tag, le16 keepalive⟩
  | .closeSession tag => some ⟨0x03, tag, []⟩
  | .ping tag payload => some ⟨0x04, tag, payload⟩
  | .resetPart tag => some ⟨0x05, tag, []⟩
  | .ackEvents tag seq => some ⟨0x06, tag, le16 seq⟩
  | .replayEvents tag seq => some ⟨0x07, tag, le16 seq⟩
  | .readTime tag => some ⟨0x10, tag, []⟩
  | .setTick tag divider => some ⟨0x11, tag, [divider]⟩
  | .setReference tag interval window => some ⟨0x12, tag, le32 interval ++ le16 window⟩
  | .readReference tag => some ⟨0x13, tag, []⟩
  | .configureLine tag line role rest filter capture => some ⟨0x18, tag, [line, role, rest, filter, capture]⟩
  | .readLines tag => some ⟨0x19, tag, []⟩
  | .openPage tag period repeats flags reserved => some ⟨0x20, tag, le32 period ++ le16 repeats ++ [flags, reserved]⟩
  | .appendSteps tag page reserved records => some ⟨0x21, tag, page :: reserved :: records.flatMap StepRecord.bytes⟩
  | .sealPage tag page => some ⟨0x22, tag, [page]⟩
  | .discardPage tag page => some ⟨0x23, tag, [page]⟩
  | .readPage tag page first => some ⟨0x24, tag, [page, first]⟩
  | .readPool tag => some ⟨0x25, tag, []⟩
  | .configureTrack tag track enable policy options group rest =>
    some ⟨0x30, tag, [track, enable, policy, options] ++ le16 group ++ le16 rest⟩
  | .queuePage tag page track => some ⟨0x31, tag, [page, track]⟩
  | .flushQueue tag track => some ⟨0x32, tag, [track]⟩
  | .startTrackAt tag track options trigger time offset =>
    some ⟨0x33, tag, [track, 0, options, trigger] ++ le48 time ++ le32 offset⟩
  | .startTrackAfter tag track options trigger time offset =>
    some ⟨0x33, tag, [track, 1, options, trigger] ++ le48 time ++ le32 offset⟩
  | .startTrackOnTrigger tag track options trigger time offset =>
    some ⟨0x33, tag, [track, 2, options, trigger] ++ le48 time ++ le32 offset⟩
  | .startTrackAtEpoch tag track options trigger time offset =>
    some ⟨0x33, tag, [track, 3, options, trigger] ++ le48 time ++ le32 offset⟩
  | .stopTrackAbort tag track => some ⟨0x34, tag, [track, 0]⟩
  | .stopTrackEnd tag track => some ⟨0x34, tag, [track, 1]⟩
  | .holdTrack tag track => some ⟨0x35, tag, [track]⟩
  | .releaseTrack tag track => some ⟨0x36, tag, [track]⟩
  | .readTrack tag track => some ⟨0x37, tag, [track]⟩
  | .armTrigger tag trigger line sense count flags => some ⟨0x40, tag, [trigger, line, sense, count, flags]⟩
  | .disarmTrigger tag trigger => some ⟨0x41, tag, [trigger]⟩
  | .readTrigger tag trigger => some ⟨0x42, tag, [trigger]⟩
  | .readJournal tag ack maximum reserved wait => some ⟨0x48, tag, le16 ack ++ [maximum, reserved] ++ le16 wait⟩
  | .setJournal tag watermark => some ⟨0x49, tag, le16 watermark⟩
  | .badKindFrame tag kind payload => some ⟨kind, tag, payload⟩
  | .byteReceived _ => none
  | .gapTimeout => none
  | .keepaliveExpiry => none
  | .transmitNextFrame => none
  | .resetPower => none
  | .resetPin => none
  | .resetRequest => none
  | .startUpEnd => none
  | .inputTransition _ _ => none
  | .edgeAcceptance _ => none
  | .referencePulse => none
  | .missingPulseExpiry => none
  | .firingAgeDiscard _ => none
  | .gateExpiry _ => none
  | .gateResume _ => none
  | .journalWaitExpiry => none
  | .armedStartEffect _ => none
  | .releaseStartEffect _ => none
  | .trackActionTick _ => none
  | .resetEnd _ => none

/-- The Start Track request with a given mode code (R186: AT 0, AFTER 1, ON_TRIGGER 2, AT_EPOCH 3). -/
def startCommand (tag track mode options trigger : Byte) (time : Stamp) (offset : Word32) : Option Instr :=
  match mode.toNat with
  | 0 => some (.startTrackAt tag track options trigger time offset)
  | 1 => some (.startTrackAfter tag track options trigger time offset)
  | 2 => some (.startTrackOnTrigger tag track options trigger time offset)
  | 3 => some (.startTrackAtEpoch tag track options trigger time offset)
  | _ => none

/-- The Stop Track request with a given mode code (R186: ABORT 0, END 1). -/
def stopCommand (tag track mode : Byte) : Option Instr :=
  match mode.toNat with
  | 0 => some (.stopTrackAbort tag track)
  | 1 => some (.stopTrackEnd tag track)
  | _ => none

/-- The request that a payload of a kind spells: the layouts of R187. None where the kind is no request kind, where the
payload does not fit the kind, and where the mode of Start Track or Stop Track is none of the table's. -/
def requestOfPayload (kind : Nat) (tag : Byte) (payload : List Byte) : Option Instr :=
  match kind with
  | 0x01 => match payload with | [] => some (.identify tag) | _ => none
  | 0x02 => match payload with | [k0, k1] => some (.openSession tag (ofLe16 k0 k1)) | _ => none
  | 0x03 => match payload with | [] => some (.closeSession tag) | _ => none
  | 0x04 => some (.ping tag payload)
  | 0x05 => match payload with | [] => some (.resetPart tag) | _ => none
  | 0x06 => match payload with | [s0, s1] => some (.ackEvents tag (ofLe16 s0 s1)) | _ => none
  | 0x07 => match payload with | [s0, s1] => some (.replayEvents tag (ofLe16 s0 s1)) | _ => none
  | 0x10 => match payload with | [] => some (.readTime tag) | _ => none
  | 0x11 => match payload with | [d] => some (.setTick tag d) | _ => none
  | 0x12 => match payload with
    | [i0, i1, i2, i3, w0, w1] => some (.setReference tag (ofLe32 i0 i1 i2 i3) (ofLe16 w0 w1))
    | _ => none
  | 0x13 => match payload with | [] => some (.readReference tag) | _ => none
  | 0x18 => match payload with
    | [line, role, rest, filter, capture] => some (.configureLine tag line role rest filter capture)
    | _ => none
  | 0x19 => match payload with | [] => some (.readLines tag) | _ => none
  | 0x20 => match payload with
    | [p0, p1, p2, p3, r0, r1, flags, reserved] =>
      some (.openPage tag (ofLe32 p0 p1 p2 p3) (ofLe16 r0 r1) flags reserved)
    | _ => none
  | 0x21 => match payload with
    | page :: reserved :: rest => (StepRecord.ofBytes rest).map (.appendSteps tag page reserved ·)
    | _ => none
  | 0x22 => match payload with | [page] => some (.sealPage tag page) | _ => none
  | 0x23 => match payload with | [page] => some (.discardPage tag page) | _ => none
  | 0x24 => match payload with | [page, first] => some (.readPage tag page first) | _ => none
  | 0x25 => match payload with | [] => some (.readPool tag) | _ => none
  | 0x30 => match payload with
    | [track, enable, policy, options, g0, g1, r0, r1] =>
      some (.configureTrack tag track enable policy options (ofLe16 g0 g1) (ofLe16 r0 r1))
    | _ => none
  | 0x31 => match payload with | [page, track] => some (.queuePage tag page track) | _ => none
  | 0x32 => match payload with | [track] => some (.flushQueue tag track) | _ => none
  | 0x33 => match payload with
    | [track, mode, options, trigger, t0, t1, t2, t3, t4, t5, o0, o1, o2, o3] =>
      startCommand tag track mode options trigger (ofLe48 t0 t1 t2 t3 t4 t5) (ofLe32 o0 o1 o2 o3)
    | _ => none
  | 0x34 => match payload with | [track, mode] => stopCommand tag track mode | _ => none
  | 0x35 => match payload with | [track] => some (.holdTrack tag track) | _ => none
  | 0x36 => match payload with | [track] => some (.releaseTrack tag track) | _ => none
  | 0x37 => match payload with | [track] => some (.readTrack tag track) | _ => none
  | 0x40 => match payload with
    | [trigger, line, sense, count, flags] => some (.armTrigger tag trigger line sense count flags)
    | _ => none
  | 0x41 => match payload with | [trigger] => some (.disarmTrigger tag trigger) | _ => none
  | 0x42 => match payload with | [trigger] => some (.readTrigger tag trigger) | _ => none
  | 0x48 => match payload with
    | [a0, a1, maximum, reserved, w0, w1] => some (.readJournal tag (ofLe16 a0 a1) maximum reserved (ofLe16 w0 w1))
    | _ => none
  | 0x49 => match payload with | [w0, w1] => some (.setJournal tag (ofLe16 w0 w1)) | _ => none
  | _ => none

/-- The command a good frame spells: its request, or BAD_KIND_FRAME for a kind that is not a request kind (R168). -/
def Frame.command (f : Frame) : Option Instr :=
  if isRequestKind f.kind then requestOfPayload f.kind.toNat f.tag f.payload
  else some (.badKindFrame f.tag f.kind f.payload)

/-- The command that a word spells by the opcode table's bits: the table gives no row any bits, so none. -/
def decodeTableWord (_nbits _w : Nat) : Option Instr := none

end Sys2Proof
end

