-- ==== Sys2Proof/Config.lean ====
section
/-! DEFINITION. What the part fixes: its capacities and fixed durations (00_scope.md, Capacities and Conventions), and
the values and orders the spec leaves open, as constants without a body. -/

namespace Sys2Proof.Config

/-- Step slots shared by all pages (R9). -/
def stepSlots : Nat := 1024
/-- Steps in one page (R12). -/
def pageSteps : Nat := 128
/-- Places of a track queue, not counting the active page (R31). -/
def queueDepth : Nat := 8
/-- Records of the capture journal (R132). -/
def journalRecords : Nat := 256
/-- Ordinary entries of the event queue, beside the one Events Lost entry (R148). -/
def ordinaryEvents : Nat := 31
/-- Deferred request slots (R172). -/
def deferredSlots : Nat := 4
/-- Entries of the reply cache (R171). -/
def cacheEntries : Nat := 8
/-- Bytes of the receive FIFO (R161). -/
def fifoBytes : Nat := 1024
/-- Places of the reply transmit buffer (R167). -/
def bufferReplies : Nat := 4
/-- The lead in ticks (00_scope.md, Lead). -/
def lead : Nat := 64
/-- The trigger latency in ticks (00_scope.md, Trigger latency). -/
def triggerLatency : Nat := 4
/-- Base clock periods in one millisecond: 100 MHz (R106). -/
def periodsPerMs : Nat := 100000
/-- The start-up interval, 2 ms, in base clock periods (R185). -/
def startUpPeriods : Nat := 200000
/-- The age at which a held firing is discarded, in ticks (R90). -/
def firingAge : Nat := 70368744177664

/-- FREE VALUE (log entry 4): which of several actions due at one tick the part takes first, which R70, R154 and the
tables of claims (R96, R105, R117, R129, R145, R158, R175) leave open; applied to the counter `choices`. -/
opaque dueOrder : Nat → Nat
/-- FREE VALUE (log entry 5): the order in which the journal and the triggers of a line act on one accepted edge, which
R125 and R154 leave open; applied to the counter `choices`. -/
opaque receiverOrder : Nat → Nat
/-- FREE VALUE (log entry 6): the order of the ABORTED replies that one session end produces, which R173 leaves open;
applied to the counter `choices`. -/
opaque abortOrder : Nat → Nat
/-- FREE VALUE (log entry 13): the 2-byte repetition index field of Read Track for an index above 65535, which R80 and
R188 do not state; applied to the index. -/
opaque wideRepetitionIndex : Nat → Word16

end Sys2Proof.Config
end

