-- ==== Sys2Proof/Machine/State.lean ====
section
/-! DEFINITION. The state of the part, block by block, as plain data, and its value right after reset. Fields that the
spec calls absent in a state of a unit stand inside that state's constructor, or are an Option; what one unit's record and
another's both show (a line's owner, a trigger's consumers, the free counts) has one home and is computed (log entry 14). -/

namespace Sys2Proof.Machine

/-! ## Pages and steps (R1 to R8) -/

/-- The states of a page record (R10). -/
inductive PageState where
  | free | opened | sealed | queued | active
  deriving DecidableEq, Repr

/-- What a gate does when it times out (R8). -/
inductive GateAction where
  | continue | fault
  deriving DecidableEq, Repr

/-- A step with the contents its kind calls for (R3 to R8). -/
inductive Step where
  | drive (offset : Word32) (lines levels : LineSet)
  | toggle (offset : Word32) (lines : LineSet)
  | pulse (offset : Word32) (lines : LineSet) (level : Bool) (width : Word32)
  | mark (offset : Word32) (code : Word16)
  | gate (offset : Word32) (trigger : TriggerId) (timeout : Word32) (action : GateAction) (report : Bool)
  deriving DecidableEq, Repr

/-- A page record (R1). A FREE page's fields carry no value and are kept clear. -/
structure Page where
  state : PageState
  period : Word32
  repeats : Word16
  retain : Bool
  holdAfter : Bool
  steps : List Step
  footprint : LineSet
  gateSet : TriggerSet
  owner : Option TrackId
  deriving DecidableEq, Repr

/-! ## Tracks (R27, R28, R61, R77) -/

/-- Underrun policies (R27). -/
inductive Policy where
  | holdLevels | rest | fault | repeatLast
  deriving DecidableEq, Repr

/-- The form of an armed start (R61). -/
inductive StartForm where
  | timed (start : Stamp) (late : Bool)
  | onTrigger (trigger : TriggerId) (offset : Word32)
  | onEpoch (epoch offset : Word32)
  deriving DecidableEq, Repr

/-- An armed start (R61). -/
structure ArmedStart where
  form : StartForm
  replyOnStart : Bool
  deriving DecidableEq, Repr

/-- A pending pulse end: end offset, line set, level (R35). -/
structure PulseEnd where
  offset : Word32
  lines : LineSet
  level : Bool
  deriving DecidableEq, Repr

/-- The playback context (R27). The page-time position is computed from it (R33). -/
structure Playback where
  page : PageId
  runStart : Stamp
  repStart : Stamp
  repIndex : Nat
  nextStep : Nat
  stall : Stamp
  pulseEnds : List PulseEnd
  repsPlayed : Nat
  deriving DecidableEq, Repr

/-- The gate at which a STALLED track stands: the step, the gate tick g, the expiry, and, once a firing has released it,
the tick at which page time resumes (R99, R100). -/
structure GateWait where
  index : Nat
  offset : Word32
  trigger : TriggerId
  action : GateAction
  report : Bool
  reached : Stamp
  expiry : Option Stamp
  resume : Option Stamp
  deriving DecidableEq, Repr

/-- The states of a track with what is present in each alone (R27, R28): the armed start in ARMED, the playback context in
PLAYING and STALLED, the gate in STALLED, the release start, if any, in HOLDING. -/
inductive TrackState where
  | disabled
  | idle
  | armed (start : ArmedStart)
  | playing (context : Playback)
  | stalled (context : Playback) (gate : GateWait)
  | holding (release : Option Stamp)
  | faulted
  deriving DecidableEq, Repr

/-- A pending configuration (R54). -/
structure PendingConfig where
  policy : Policy
  rest : LineSet
  reportStarted : Bool
  reportRetired : Bool
  deriving DecidableEq, Repr

/-- A track record (R27). `stopRequest` set is a stop request END. -/
structure Track where
  state : TrackState
  group : LineSet
  policy : Policy
  reportStarted : Bool
  reportRetired : Bool
  queue : List PageId
  hold : Bool
  stopRequest : Bool
  pendingConfig : Option PendingConfig
  looping : Bool
  deriving DecidableEq, Repr

/-! ## Triggers (R84) -/

/-- Trigger senses (R86). -/
inductive Sense where
  | rise | fall | either | levelHigh | levelLow
  deriving DecidableEq, Repr

/-- The latch, with the held firing in FIRED (R84). -/
inductive Latch where
  | disarmed
  | armed
  | fired (stamp acceptance : Stamp) (overrun : Bool)
  | blocked
  deriving DecidableEq, Repr

/-- A trigger's configuration (R84); `limited` tells LIMITED from UNLIMITED. -/
structure TriggerConfig where
  line : LineId
  sense : Sense
  limited : Bool
  remaining : Nat
  report : Bool
  deriving DecidableEq, Repr

/-- A trigger record (R84). -/
structure Trigger where
  latch : Latch
  config : Option TriggerConfig
  deriving DecidableEq, Repr

/-- The mark of a consumer (R84). -/
inductive Mark where
  | start | gate
  deriving DecidableEq, Repr

/-! ## Lines (R119) -/

/-- Which accepted edges the journal records (R119). -/
inductive CaptureEdges where
  | none | rise | fall | both
  deriving DecidableEq, Repr

/-- A line's role with what is present in it alone (R119). The candidate is kept as its stamp: its new level is the inverse
of the sensed level (R123). -/
inductive LineRole where
  | unused
  | output (driven : Bool)
  | input (filter : Byte) (capture : CaptureEdges) (sensed : Bool) (candidate : Option Stamp)
  deriving DecidableEq, Repr

/-- A line record (R119). -/
structure Line where
  rest : Bool
  role : LineRole
  deriving DecidableEq, Repr

/-! ## Reference unit (R111) -/

/-- The reference status (R111). -/
inductive RefStatus where
  | free | seeking | locked
  deriving DecidableEq, Repr

/-- The reference unit's record (R111). The missing-pulse expiry is computed from the base (R113). -/
structure Reference where
  epoch : Word32
  lastPulse : Option Stamp
  status : RefStatus
  interval : Word32
  window : Word16
  base : Option Stamp
  good : Nat
  measured : Option Stamp
  deriving DecidableEq, Repr

/-! ## Capture journal (R132) -/

/-- The kind of a journal record (R132). -/
inductive RecordKind where
  | rise | fall | gap
  deriving DecidableEq, Repr

/-- A journal record (R132). -/
structure Record where
  seq : Word32
  count : Word32
  kind : RecordKind
  line : LineId
  stamp : Stamp
  deriving DecidableEq, Repr

/-- A pending gap (R134). -/
structure Gap where
  count : Word32
  firstSeq : Word32
  firstStamp : Stamp
  deriving DecidableEq, Repr

/-- The waiting read: its maximum and the base clock periods to its expiry (R141). -/
structure WaitingRead where
  maximum : Nat
  remaining : Nat
  deriving DecidableEq, Repr

/-- The capture journal (R132). -/
structure Journal where
  records : List Record
  seq : Word32
  gap : Option Gap
  watermark : Nat
  notice : Bool
  waiting : Option WaitingRead
  deriving DecidableEq, Repr

/-! ## Events (R148, R149) -/

/-- The outcome of a retirement (R22). -/
inductive RetireOutcome where
  | complete | aborted | faulted
  deriving DecidableEq, Repr

/-- The reason of Track Stopped (R149). -/
inductive StopReason where
  | atEnd | abort | underrun
  deriving DecidableEq, Repr

/-- The reason of Track Fault (R149). -/
inductive FaultReason where
  | underrun | gateTimeout
  deriving DecidableEq, Repr

/-- The reason of Start Cancelled (R69). -/
inductive CancelReason where
  | flushed | stopped | disarmed | reference
  deriving DecidableEq, Repr

/-- The outcome of a gate (R104). -/
inductive GateOutcome where
  | fired | timeout
  deriving DecidableEq, Repr

/-- The link fault tallies, each 0 to 65535 (R157). -/
structure Tallies where
  crc : Nat
  length : Nat
  timeout : Nat
  overrun : Nat
  deriving DecidableEq, Repr

/-- The fifteen events with their fields (R149). -/
inductive Event where
  | trackStarted (track : TrackId) (page : PageId) (stamp : Stamp) (late : Bool)
  | pageRetired (track : TrackId) (page : PageId) (stamp : Stamp) (outcome : RetireOutcome) (repsPlayed : Nat)
  | trackHeld (track : TrackId) (stamp : Stamp)
  | trackStopped (track : TrackId) (stamp : Stamp) (reason : StopReason)
  | trackUnderrun (track : TrackId) (policy : Policy) (stamp : Stamp)
  | trackFault (track : TrackId) (reason : FaultReason) (stamp : Stamp)
  | startCancelled (track : TrackId) (reason : CancelReason)
  | mark (track : TrackId) (page : PageId) (index : Nat) (code : Word16) (stamp : Stamp)
  | gateReleased (track : TrackId) (trigger : TriggerId) (outcome : GateOutcome) (stall : Stamp)
  | triggerFired (trigger : TriggerId) (line : LineId) (stamp : Stamp) (released : Nat)
  | triggerOverrun (trigger : TriggerId) (stamp : Stamp)
  | referenceStatus (status : RefStatus) (epoch : Word32) (stamp : Stamp)
  | journalNotice (held : Nat)
  | linkFault (tallies : Tallies)
  | eventsLost (count : Nat)
  deriving DecidableEq, Repr

/-- An entry of the event queue (R148). -/
structure Entry where
  seq : Word16
  event : Event
  sent : Bool
  deriving DecidableEq, Repr

/-- The event unit (R148). -/
structure EventUnit where
  queue : List Entry
  next : Word16
  deriving DecidableEq, Repr

/-! ## Link unit (R160 to R176) -/

/-- The status of a reply (R170). -/
inductive Status where
  | ok | badKind | badLength | badValue | noSession | busy | empty | noSpace | notFound | footprint | tooLate
  | inProgress | windowFull | aborted
  deriving DecidableEq, Repr

/-- A reply: its kind and tag, its status, the gate set that Read Page carries in the status byte, and the bytes after the
status byte (R169, R188). -/
structure Reply where
  kind : Byte
  tag : Byte
  status : Status
  gates : TriggerSet
  fields : List Byte
  deriving DecidableEq, Repr

/-- Who owns a deferred request: the three requests that can defer (section 9.5). -/
inductive Owner where
  | start (track : TrackId)
  | stopEnd (track : TrackId)
  | readJournal
  deriving DecidableEq, Repr

/-- A deferred request whose reply is not yet composed (R172). -/
structure Deferred where
  owner : Owner
  tag : Byte
  deriving DecidableEq, Repr

/-- A reply waiting for the arbiter: an immediate reply in the transmit buffer, or a composed deferred reply in its slot,
which is stored in the cache when taken only if its session is still open (R172). -/
inductive Outgoing where
  | immediate (reply : Reply)
  | deferred (reply : Reply) (cacheable : Bool)
  deriving DecidableEq, Repr

/-- The states of the frame assembler (R163), and a good frame that waits for the dispatcher (R164). -/
inductive Assembler where
  | hunt | length | body | waiting
  deriving DecidableEq, Repr

/-- Why the part was reset (R177). -/
inductive ResetCause where
  | power | pin | request
  deriving DecidableEq, Repr

/-- The notices (R181, R185). -/
inductive Notice where
  | hello (cause : ResetCause) (rate : BitVec 2) (stamp : Stamp)
  | sessionEnded (session : Word16) (stamp : Stamp)
  deriving DecidableEq, Repr

/-- The frame handed to TXD and the base clock periods until its last stop bit has been sent (R160, R174). -/
structure TxFrame where
  bytes : List Byte
  remaining : Nat
  deriving DecidableEq, Repr

/-- The link unit (R161 to R174). -/
structure Link where
  fifo : List Byte
  assembler : Assembler
  dropping : Bool
  sinceByte : Nat
  tallies : Tallies
  awaiting : List Deferred
  replies : List Outgoing
  cache : List Reply
  notices : List Notice
  txd : Option TxFrame
  deriving DecidableEq, Repr

/-! ## Session unit, reset and start-up (R177, R184, R185) -/

/-- The session state (R177). -/
inductive SessionStatus where
  | closed | opened
  deriving DecidableEq, Repr

/-- The session unit (R177); `silence` is the silence timer, the base clock periods to its expiry while it runs. -/
structure Session where
  status : SessionStatus
  number : Word16
  keepalive : Word16
  silence : Option Nat
  deriving DecidableEq, Repr

/-- Within a reset, within the start-up interval with the base clock periods that remain of it, or at work (R184, R185). -/
inductive Phase where
  | reset
  | startUp (remaining : Nat)
  | running
  deriving DecidableEq, Repr

/-- Whether a Reset Part has been executed and its reply taken by the arbiter (R167, R174, R184). -/
inductive ResetPart where
  | none | executed | replyTaken
  deriving DecidableEq, Repr

/-! ## The sample of the pins that is being taken (R123, R135; log entry 29) -/

/-- What the rows of the sample that is being taken have told of it: the lines whose level they showed, and the lines whose
candidate it accepts. -/
structure Sample where
  shown : LineSet
  accepted : LineSet
  deriving DecidableEq, Repr

/-- A sample of which nothing has been told. -/
def Sample.fresh : Sample := ⟨0, 0⟩

/-! ## The whole part -/

/-- The state of the part and the queue of commands waiting for it. -/
structure State where
  timeline : Stamp
  divider : Nat
  prescale : Nat
  phase : Phase
  cause : ResetCause
  straps : BitVec 2
  linkRate : BitVec 2
  resetPart : ResetPart
  session : Session
  pages : Vector Page 64
  tracks : Vector Track 8
  triggers : Vector Trigger 4
  lines : Vector Line 16
  pinLevels : LineSet
  sample : Sample
  reference : Reference
  journal : Journal
  events : EventUnit
  link : Link
  choices : Nat
  pending : List Instr
  deriving DecidableEq, Repr

/-- No command of this part stops it: every request is answered (R169), so there is no fault. -/
inductive Fault where
  deriving DecidableEq, Repr

/-- Why a command has no meaning. -/
inductive Refusal where
  /-- Raised by an arm of exec that has no meaning yet, with the command's mnemonic; no arm raises it. Safe: the model stops
  where the part goes on. -/
  | notModelled (mnemonic : String)
  deriving DecidableEq, Repr

/-! ## Reset values -/

/-- A FREE page, its record clear (R1, R26). -/
def Page.cleared : Page := ⟨.free, 0, 0, false, false, [], 0, 0, none⟩

/-- A track after reset (R30). -/
def Track.afterReset : Track := ⟨.disabled, 0, .holdLevels, false, false, [], false, false, none, false⟩

/-- A trigger after reset (R98). -/
def Trigger.afterReset : Trigger := ⟨.disarmed, none⟩

/-- A line after reset (R119, R131). -/
def Line.afterReset : Line := ⟨false, .unused⟩

/-- The reference unit after reset (R111, R118). -/
def Reference.afterReset : Reference := ⟨0, none, .free, 0, 0, none, 0, none⟩

/-- The journal after reset (R147). -/
def Journal.afterReset : Journal := ⟨[], 0, none, 0, false, none⟩

/-- The event unit after reset (R159). -/
def EventUnit.afterReset : EventUnit := ⟨[], 1⟩

/-- The tallies after reset and at session open (R166). -/
def Tallies.zero : Tallies := ⟨0, 0, 0, 0⟩

/-- The link unit after reset (R176). -/
def Link.afterReset : Link := ⟨[], .hunt, false, 0, Tallies.zero, [], [], [], [], none⟩

/-- The session unit after reset (R177). -/
def Session.afterReset : Session := ⟨.closed, 0, 0, none⟩

/-- The part right after reset (R184): the reset has ended, the timeline stands at 0 and the start-up interval begins. The
cause is POWER, the straps and the levels on the pins are 0 (log entry 7), and no sample is being taken (log entry 29). -/
def State.reset : State where
  timeline := 0
  divider := 1
  prescale := 0
  phase := .startUp Config.startUpPeriods
  cause := .power
  straps := 0
  linkRate := 0
  resetPart := .none
  session := Session.afterReset
  pages := Vector.replicate 64 Page.cleared
  tracks := Vector.replicate 8 Track.afterReset
  triggers := Vector.replicate 4 Trigger.afterReset
  lines := Vector.replicate 16 Line.afterReset
  pinLevels := 0
  sample := Sample.fresh
  reference := Reference.afterReset
  journal := Journal.afterReset
  events := EventUnit.afterReset
  link := Link.afterReset
  choices := 0
  pending := []

end Sys2Proof.Machine
end

