-- ==== Sys2Proof/Machine/Operands.lean ====
section
/-! DEFINITION. Operands: the codes of named values (R186, R188), ids and codes read from the bytes of a request, stamp
comparison (R107), and step records and steps (R189). -/

namespace Sys2Proof.Machine

/-! ## Stamps (R107) -/

/-- t lies ahead of u: their difference, read as a signed 48-bit number, is positive (R107). -/
def ahead (t u : Stamp) : Bool := decide (0 < (t - u).toInt)

/-- t lies at or after u (R107). -/
def atOrAfter (t u : Stamp) : Bool := decide (0 ≤ (t - u).toInt)

/-- t lies at least n ticks ahead of u (R63, R107). -/
def aheadBy (n : Nat) (t u : Stamp) : Bool := decide ((n : Int) ≤ (t - u).toInt)

/-- A duration of a request as a number of ticks of the timeline (R107). -/
def ticks (d : Word32) : Stamp := d.setWidth 48

/-- A number of ticks as a stamp's summand (R107). -/
def tickCount (n : Nat) : Stamp := BitVec.ofNat 48 n

/-! ## Numbers as bytes -/

/-- A count in one byte. -/
def u8 (n : Nat) : List Byte := [BitVec.ofNat 8 n]

/-- A count in two bytes. -/
def u16 (n : Nat) : List Byte := le16 (BitVec.ofNat 16 n)

/-- A count in four bytes. -/
def u32 (n : Nat) : List Byte := le32 (BitVec.ofNat 32 n)

/-- n bytes of 0: the fields that a reply's rule does not give for its status (R188). -/
def zeros (n : Nat) : List Byte := List.replicate n 0

/-! ## Ids in the bytes of a request -/

/-- An id below n carried in a byte, or none: the range checks of the owning rules. -/
def idBelow (n : Nat) (b : Byte) : Option (Fin n) := if h : b.toNat < n then some ⟨b.toNat, h⟩ else none

/-! ## Named values (R186) -/

/-- Page state codes. -/
def PageState.code : PageState → Nat
  | .free => 0 | .opened => 1 | .sealed => 2 | .queued => 3 | .active => 4

/-- Track state codes. -/
def TrackState.code : TrackState → Nat
  | .disabled => 0 | .idle => 1 | .armed _ => 2 | .playing _ => 3 | .stalled _ _ => 4 | .holding _ => 5 | .faulted => 6

/-- Underrun policy codes. -/
def Policy.code : Policy → Nat
  | .holdLevels => 0 | .rest => 1 | .fault => 2 | .repeatLast => 3

/-- The policy a byte names. -/
def Policy.ofByte (b : Byte) : Option Policy :=
  match b.toNat with
  | 0 => some .holdLevels | 1 => some .rest | 2 => some .fault | 3 => some .repeatLast | _ => none

/-- Armed start form codes. -/
def StartForm.code : StartForm → Nat
  | .timed _ _ => 0 | .onTrigger _ _ => 1 | .onEpoch _ _ => 2

/-- Line role codes. -/
def LineRole.code : LineRole → Nat
  | .unused => 0 | .output _ => 1 | .input _ _ _ _ => 2

/-- Capture edges codes. -/
def CaptureEdges.code : CaptureEdges → Nat
  | .none => 0 | .rise => 1 | .fall => 2 | .both => 3

/-- The capture edges a byte names. -/
def CaptureEdges.ofByte (b : Byte) : Option CaptureEdges :=
  match b.toNat with
  | 0 => some .none | 1 => some .rise | 2 => some .fall | 3 => some .both | _ => Option.none

/-- Whether the capture edges name the direction of an edge (R125). -/
def CaptureEdges.names (c : CaptureEdges) (rising : Bool) : Bool :=
  match c with
  | .none => false | .rise => rising | .fall => !rising | .both => true

/-- Trigger sense codes. -/
def Sense.code : Sense → Nat
  | .rise => 0 | .fall => 1 | .either => 2 | .levelHigh => 3 | .levelLow => 4

/-- The sense a byte names. -/
def Sense.ofByte (b : Byte) : Option Sense :=
  match b.toNat with
  | 0 => some .rise | 1 => some .fall | 2 => some .either | 3 => some .levelHigh | 4 => some .levelLow | _ => none

/-- The edges of a sense's kind (R86). -/
def Sense.matchesEdge (sense : Sense) (rising : Bool) : Bool :=
  match sense with
  | .rise => rising | .fall => !rising | .either => true | .levelHigh => rising | .levelLow => !rising

/-- The active level of a level sense; none for an edge sense (R86). -/
def Sense.activeLevel : Sense → Option Bool
  | .rise => none | .fall => none | .either => none | .levelHigh => some true | .levelLow => some false

/-- Latch state codes. -/
def Latch.code : Latch → Nat
  | .disarmed => 0 | .armed => 1 | .fired _ _ _ => 2 | .blocked => 3

/-- Reference status codes. -/
def RefStatus.code : RefStatus → Nat
  | .free => 0 | .seeking => 1 | .locked => 2

/-- Retirement outcome codes. -/
def RetireOutcome.code : RetireOutcome → Nat
  | .complete => 0 | .aborted => 1 | .faulted => 2

/-- Track Stopped reason codes. -/
def StopReason.code : StopReason → Nat
  | .atEnd => 0 | .abort => 1 | .underrun => 2

/-- Track Fault reason codes. -/
def FaultReason.code : FaultReason → Nat
  | .underrun => 0 | .gateTimeout => 1

/-- Start Cancelled reason codes. -/
def CancelReason.code : CancelReason → Nat
  | .flushed => 0 | .stopped => 1 | .disarmed => 2 | .reference => 3

/-- Gate outcome codes. -/
def GateOutcome.code : GateOutcome → Nat
  | .fired => 0 | .timeout => 1

/-- Reset cause codes. -/
def ResetCause.code : ResetCause → Nat
  | .power => 0 | .pin => 1 | .request => 2

/-- Session state codes (R188). -/
def SessionStatus.code : SessionStatus → Nat
  | .closed => 0 | .opened => 1

/-- Journal record kind codes (R190). -/
def RecordKind.code : RecordKind → Nat
  | .rise => 1 | .fall => 2 | .gap => 3

/-- Status codes (R188), the low four bits of the status byte. -/
def Status.code : Status → BitVec 4
  | .ok => 0 | .badKind => 1 | .badLength => 2 | .badValue => 3 | .noSession => 4 | .busy => 5 | .empty => 6
  | .noSpace => 7 | .notFound => 8 | .footprint => 9 | .tooLate => 10 | .inProgress => 11 | .windowFull => 12
  | .aborted => 13

/-- The dividers (R106), each carried as its own value (R186). -/
def isDivider (n : Nat) : Bool := n ∈ [1, 2, 4, 8, 16, 32, 64, 128]

/-! ## Steps and step records (R3, R13, R189) -/

/-- The offset of a step. -/
def Step.offset : Step → Word32
  | .drive o _ _ => o | .toggle o _ => o | .pulse o _ _ _ => o | .mark o _ => o | .gate o _ _ _ _ => o

/-- The lines a step touches (R16). -/
def Step.lines : Step → LineSet
  | .drive _ l _ => l | .toggle _ l => l | .pulse _ l _ _ => l | .mark _ _ => 0 | .gate _ _ _ _ _ => 0

/-- The trigger a step names, as a set (R16). -/
def Step.gates : Step → TriggerSet
  | .gate _ k _ _ _ => BitVec.twoPow 4 k.val
  | .drive _ _ _ | .toggle _ _ | .pulse _ _ _ _ | .mark _ _ => 0

/-- The contents of a step record by its kind, every field and bit its kind does not use being 0, and the conditions that
R13 and R189 make on the record alone; none for an invalid record. -/
def stepContents (r : StepRecord) : Option Step :=
  match r.kind.toNat with
  | 1 =>
    if r.flags = 0 ∧ r.lines ≠ 0 ∧ r.argument.extractLsb' 16 16 = 0 ∧ r.argument.extractLsb' 0 16 &&& ~~~r.lines = 0 then
      some (.drive r.offset r.lines (r.argument.extractLsb' 0 16))
    else none
  | 2 => if r.flags = 0 ∧ r.lines ≠ 0 ∧ r.argument = 0 then some (.toggle r.offset r.lines) else none
  | 3 =>
    if r.flags &&& 0xFE = 0 ∧ r.lines ≠ 0 ∧ r.argument ≠ 0 then
      some (.pulse r.offset r.lines (r.flags.getLsbD 0) r.argument)
    else none
  | 4 =>
    if r.flags = 0 ∧ r.lines = 0 ∧ r.argument.extractLsb' 16 16 = 0 then
      some (.mark r.offset (r.argument.extractLsb' 0 16))
    else none
  | 5 =>
    if r.flags &&& 0xC0 = 0 ∧ r.lines = 0 then
      (idBelow 4 (r.flags &&& 0x0F)).map fun k =>
        .gate r.offset k r.argument (if r.flags.getLsbD 4 then .fault else .continue) (r.flags.getLsbD 5)
    else none
  | _ => none

/-- The record that carries a step: Read Page returns each step byte for byte as it was appended (R189). -/
def Step.record : Step → StepRecord
  | .drive o l v => ⟨1, 0, o, l, v.setWidth 32⟩
  | .toggle o l => ⟨2, 0, o, l, 0⟩
  | .pulse o l v w => ⟨3, (BitVec.ofBool v).setWidth 8, o, l, w⟩
  | .mark o c => ⟨4, 0, o, 0, c.setWidth 32⟩
  | .gate o k t a r =>
    ⟨5, BitVec.ofNat 8 (k.val + (if a = .fault then 16 else 0) + (if r then 32 else 0)), o, 0, t⟩

/-- The conditions on a step that its page makes: the offset lies below the period and not below the offset before it, and a
pulse ends within the period (R13). -/
def Step.fits (period : Word32) (before : Nat) (st : Step) : Bool :=
  decide (st.offset.toNat < period.toNat) && decide (before ≤ st.offset.toNat) &&
    match st with
    | .pulse o _ _ w => decide (o.toNat + w.toNat ≤ period.toNat)
    | .drive _ _ _ | .toggle _ _ | .mark _ _ | .gate _ _ _ _ _ => true

/-- The steps of a request in request order, or the index within the request of the first invalid one (R13). `before` is
the offset of the step before, 0 for an empty page. -/
def checkSteps (period : Word32) : Nat → Nat → List StepRecord → Except Nat (List Step)
  | _, _, [] => .ok []
  | index, before, r :: rest =>
    match stepContents r with
    | none => .error index
    | some st =>
      if st.fits period before then
        match checkSteps period (index + 1) st.offset.toNat rest with
        | .ok sts => .ok (st :: sts)
        | .error i => .error i
      else .error index

/-! ## Records on the link -/

/-- The 16 bytes of a journal record (R190). -/
def Record.bytes (r : Record) : List Byte :=
  le32 r.seq ++ le32 r.count ++ u8 r.kind.code ++ u8 r.line.val ++ le48 r.stamp

/-- The bytes of a reply's payload: the status byte, with a gate set in bits 4 to 7, and the fields (R188). -/
def Reply.payload (r : Reply) : List Byte := (r.gates ++ r.status.code : BitVec 8) :: r.fields

/-- The capacities block (R183, R188): lines, tracks, pages, step slots, steps per page, queued pages per track, trigger
units, journal records, event queue entries, deferred request slots, reply cache entries, maximum payload. -/
def capacities : List Byte :=
  u8 16 ++ u8 8 ++ u8 64 ++ u16 1024 ++ u8 128 ++ u8 8 ++ u8 4 ++ u16 256 ++ u8 32 ++ u8 4 ++ u8 8 ++ u8 240

end Sys2Proof.Machine
end

