-- ==== Sys2Proof/Machine/Flags.lean ====
section
/-! DEFINITION. Flag bytes: which flags a request's flag field names, which it may not (R186), and the flag bytes of the
replies and events (R188, R191). -/

namespace Sys2Proof.Machine

/-- A byte with each flag at its bit, bit 0 first (R186). -/
def flagByte (flags : List Bool) : List Byte :=
  u8 ((flags.zipIdx.map fun (f, i) => if f then 2 ^ i else 0).sum)

/-- Flag n of a flag byte. -/
def flag (b : Byte) (n : Nat) : Bool := b.getLsbD n

/-- Whether a flag byte names no flag but its first n (R186). -/
def onlyFlags (n : Nat) (b : Byte) : Bool := decide (b.toNat < 2 ^ n)

/-- A level carried in one byte. -/
def levelByte (level : Bool) : List Byte := u8 level.toNat

/-- The status of a line as one byte of Read Lines: the role in bits 0 and 1, the capture edges in bits 2 and 3, the rest
level in bit 4, the level in bit 5, a held candidate in bit 6 (R188). -/
def Line.statusByte (l : Line) : List Byte :=
  match l.role with
  | .unused => u8 (16 * l.rest.toNat)
  | .output driven => u8 (1 + 16 * l.rest.toNat + 32 * driven.toNat)
  | .input _ capture sensed candidate =>
    u8 (2 + 4 * capture.code + 16 * l.rest.toNat + 32 * sensed.toNat + 64 * candidate.isSome.toNat)

/-- The state and owner of a page as one byte: the state in bits 0 to 2, the owner in bits 3 to 5, meaningful in QUEUED and
ACTIVE and 0 otherwise (R188). -/
def Page.stateByte (p : Page) : List Byte :=
  match p.state with
  | .queued | .active => u8 (p.state.code + 8 * (p.owner.map Fin.val).getD 0)
  | .free | .opened | .sealed => u8 p.state.code

end Sys2Proof.Machine
end

