-- ==== Sys2Proof/Machine/Ops.lean ====
section
/-! DEFINITION. The named operations over the state that the commands share: access to the units' records, the event queue
(R150, R151), replies, deferred requests and the cache (R169 to R172), levels on lines, pages leaving tracks (R22, R23). -/

namespace Sys2Proof.Machine

/-! ## Records -/

/-- The record of a track, changed. -/
def State.modifyTrack (s : State) (t : TrackId) (f : Track → Track) : State :=
  { s with tracks := s.tracks.set t (f s.tracks[t]) }

/-- The state of a track, changed. -/
def State.setTrackState (s : State) (t : TrackId) (st : TrackState) : State :=
  s.modifyTrack t fun tr => { tr with state := st }

/-- A page record, changed. -/
def State.modifyPage (s : State) (p : PageId) (f : Page → Page) : State :=
  { s with pages := s.pages.set p (f s.pages[p]) }

/-- A trigger record, changed. -/
def State.modifyTrigger (s : State) (k : TriggerId) (f : Trigger → Trigger) : State :=
  { s with triggers := s.triggers.set k (f s.triggers[k]) }

/-- The latch of a trigger, changed. -/
def State.setLatch (s : State) (k : TriggerId) (latch : Latch) : State :=
  s.modifyTrigger k fun tr => { tr with latch := latch }

/-- A line record, changed. -/
def State.modifyLine (s : State) (l : LineId) (f : Line → Line) : State :=
  { s with lines := s.lines.set l (f s.lines[l]) }

/-- Every line record of a set of lines, changed. -/
def State.mapLines (s : State) (mask : LineSet) (f : LineId → Line → Line) : State :=
  { s with lines := s.lines.mapFinIdx fun i l h => if mask.getLsbD i then f ⟨i, h⟩ l else l }

/-- Whether the session is open. -/
def State.isOpen (s : State) : Bool := decide (s.session.status = .opened)

/-- All tracks, T0 first. -/
def allTracks : List TrackId := List.finRange 8

/-- All triggers, K0 first. -/
def allTriggers : List TriggerId := List.finRange 4

/-- All lines, L0 first. -/
def allLines : List LineId := List.finRange 16

/-- A list in the order a code gives: the code chooses one element, its quotient the next, as often as `n` says. -/
def reorder {α : Type} : Nat → Nat → List α → List α
  | 0, _, l => l
  | n + 1, code, l =>
    match l[code % l.length]? with
    | none => l
    | some x => x :: reorder n (code / l.length) (l.eraseIdx (code % l.length))

/-- A list in a free order: `order` is a free value of Config; a list of one element needs none (log entries 5 and 6). -/
def freeOrder {α : Type} (order : Nat → Nat) (n : Nat) : List α → List α
  | [] => []
  | [x] => [x]
  | x :: y :: rest => reorder (rest.length + 2) (order n) (x :: y :: rest)

/-! ## The event queue -/

/-- Whether an entry is the Events Lost entry (R148). -/
def Entry.isLost (e : Entry) : Bool :=
  match e.event with
  | .eventsLost _ => true
  | _ => false

/-- Whether an entry is a Link Fault entry (R157). -/
def Entry.isLinkFault (e : Entry) : Bool :=
  match e.event with
  | .linkFault _ => true
  | _ => false

/-- The Events Lost entry with one more event counted: its count rises and it becomes unsent, unless the count stands at
65535 (R151). -/
def Entry.countLost (e : Entry) : Entry :=
  match e.event with
  | .eventsLost n => if n < 65535 then { e with event := .eventsLost (n + 1), sent := false } else e
  | _ => e

/-- Whether the event unit would store an ordinary event: fewer than 31 ordinary entries and no Events Lost entry (R150). -/
def EventUnit.hasRoom (u : EventUnit) : Bool :=
  !u.queue.any Entry.isLost && decide (u.queue.length < Config.ordinaryEvents)

/-- The event unit taking an ordinary event (R150). -/
def EventUnit.store (u : EventUnit) (e : Event) : EventUnit :=
  if u.queue.any Entry.isLost then { u with queue := u.queue.map Entry.countLost }
  else if u.queue.length < Config.ordinaryEvents then ⟨u.queue ++ [⟨u.next, e, false⟩], u.next + 1⟩
  else ⟨u.queue ++ [⟨u.next, .eventsLost 1, false⟩], u.next + 1⟩

/-- A block queues an event: kept only while a session is open (R149, R150). -/
def State.queueEvent (s : State) (e : Event) : State :=
  if s.isOpen then { s with events := s.events.store e } else s

/-- An event queued only when an option or a report flag asks for it. -/
def State.queueEventIf (s : State) (wanted : Bool) (e : Event) : State :=
  if wanted then s.queueEvent e else s

/-! ## Link fault tallies (R157, R166) -/

/-- The four link faults. -/
inductive LinkFaultKind where
  | crc | length | timeout | overrun
  deriving DecidableEq, Repr

/-- A tally raised by 1, saturating at 65535 (R157). -/
def raised (n : Nat) : Nat := min (n + 1) 65535

/-- The tallies with one fault counted (R166). -/
def Tallies.count (t : Tallies) : LinkFaultKind → Tallies
  | .crc => { t with crc := raised t.crc }
  | .length => { t with length := raised t.length }
  | .timeout => { t with timeout := raised t.timeout }
  | .overrun => { t with overrun := raised t.overrun }

/-- Queue Link Fault with the tallies as they stand: they become 0 if the event unit stores the entry, and keep their values
if it counts it as lost (R157). -/
def State.reportLinkFault (s : State) : State :=
  let s' := s.queueEvent (.linkFault s.link.tallies)
  if s.isOpen && s.events.hasRoom then { s' with link := { s'.link with tallies := Tallies.zero } } else s'

/-- A link fault is counted, and reported while a session is open and no Link Fault entry is held (R157, R166). -/
def State.linkFault (s : State) (kind : LinkFaultKind) : State :=
  let s := { s with link := { s.link with tallies := s.link.tallies.count kind } }
  if s.isOpen && !s.events.queue.any Entry.isLinkFault then s.reportLinkFault else s

/-! ## Replies, deferred requests and the cache -/

/-- Whether an outgoing reply stands in the reply transmit buffer (R167). -/
def Outgoing.isImmediate : Outgoing → Bool
  | .immediate _ => true
  | .deferred _ _ => false

/-- The reply of an outgoing place. -/
def Outgoing.reply : Outgoing → Reply
  | .immediate r => r
  | .deferred r _ => r

/-- How many places of the reply transmit buffer are taken (R167). -/
def State.buffered (s : State) : Nat := s.link.replies.countP Outgoing.isImmediate

/-- How many deferred request slots are held: requests not yet composed, and composed replies not yet taken (R172). -/
def State.heldSlots (s : State) : Nat :=
  s.link.awaiting.length + s.link.replies.countP (!·.isImmediate)

/-- Whether a deferred request slot is free (R172). -/
def State.slotFree (s : State) : Bool := decide (s.heldSlots < Config.deferredSlots)

/-- An immediate reply takes its place behind the replies already there (R167, R174). -/
def State.pushReply (s : State) (r : Reply) : State :=
  { s with link := { s.link with replies := s.link.replies ++ [.immediate r] } }

/-- A reply is stored in the cache: not with tag 0, not WINDOW_FULL, not while no session is open; the oldest entry leaves
when 8 are held (R171). -/
def State.cacheReply (s : State) (r : Reply) : State :=
  if r.tag ≠ 0 ∧ r.status ≠ .windowFull ∧ s.isOpen then
    { s with link := { s.link with cache := s.link.cache.drop (s.link.cache.length + 1 - Config.cacheEntries) ++ [r] } }
  else s

/-- The cached reply of a tag (R171). -/
def State.cached (s : State) (tag : Byte) : Option Reply := s.link.cache.find? (·.tag == tag)

/-- Whether a tag is that of a deferred request in flight: not yet composed, or composed and not yet taken (R172). -/
def State.inFlight (s : State) (tag : Byte) : Bool :=
  s.link.awaiting.any (·.tag == tag) || s.link.replies.any fun o => !o.isImmediate && o.reply.tag == tag

/-- The reply kind of a deferred request: the request's kind plus 80h (R169). -/
def Owner.replyKind : Owner → Byte
  | .start _ => 0xB3
  | .stopEnd _ => 0xB4
  | .readJournal => 0xC8

/-- A deferred request takes a slot (R172). -/
def State.defer (s : State) (owner : Owner) (tag : Byte) : State :=
  { s with link := { s.link with awaiting := s.link.awaiting ++ [⟨owner, tag⟩] } }

/-- The reply of a deferred request is composed in its slot and takes its place behind every reply produced before it; where
no such request is held nothing happens (R172). From then on its slot counts among the 4, and its owner may take another,
which is the model's choice (log entry 31). -/
def State.compose (s : State) (owner : Owner) (status : Status) (fields : List Byte) : State :=
  match s.link.awaiting.find? (·.owner == owner) with
  | none => s
  | some d =>
    { s with link := { s.link with
        awaiting := s.link.awaiting.filter (·.owner != owner)
        replies := s.link.replies ++ [.deferred ⟨owner.replyKind, d.tag, status, 0, fields⟩ true] } }

/-- The fields of a deferred reply answered ABORTED: the track for a start (R66), 0 for the rest (R188; log entry 12). -/
def Owner.abortedFields : Owner → List Byte
  | .start t => u8 t.val ++ zeros 15
  | .stopEnd _ => zeros 8
  | .readJournal => zeros 7

/-- A deferred request is answered ABORTED (R66, R73). -/
def State.composeAborted (s : State) (owner : Owner) : State := s.compose owner .aborted owner.abortedFields

/-- What the block that owns a request answers: a reply at once, or a deferral (R168 step 6). -/
inductive Answer where
  | reply (status : Status) (fields : List Byte) (gates : TriggerSet)
  | deferred (owner : Owner)
  deriving DecidableEq, Repr

/-- An immediate reply without a gate set. -/
def Answer.say (status : Status) (fields : List Byte) : Answer := .reply status fields 0

/-! ## Levels on lines -/

/-- A line driven to a level; only an output has a driven level (R119, R120). -/
def Line.drive (l : Line) (level : Bool) : Line :=
  match l.role with
  | .output _ => { l with role := .output level }
  | .unused | .input _ _ _ _ => l

/-- A line inverted (R5). -/
def Line.toggle (l : Line) : Line :=
  match l.role with
  | .output driven => { l with role := .output (!driven) }
  | .unused | .input _ _ _ _ => l

/-- A line at its rest level. -/
def Line.toRest (l : Line) : Line := l.drive l.rest

/-- The driven level of an output, false for other roles. -/
def Line.drivenLevel (l : Line) : Bool :=
  match l.role with
  | .output driven => driven
  | .unused | .input _ _ _ _ => false

/-- The sensed level of an input, false for other roles. -/
def Line.sensedLevel (l : Line) : Bool :=
  match l.role with
  | .input _ _ sensed _ => sensed
  | .unused | .output _ => false

/-- The level of a line as the replies report it: driven for an output, sensed for an input, 0 otherwise (R188). -/
def Line.level (l : Line) : Bool :=
  match l.role with
  | .unused => false
  | .output driven => driven
  | .input _ _ sensed _ => sensed

/-- What the part puts on a pin: a level for an output, high impedance (none) otherwise (R120). -/
def State.pinOut (s : State) (l : LineId) : Option Bool :=
  match s.lines[l].role with
  | .output driven => some driven
  | .unused | .input _ _ _ _ => none

/-- Every line of a set takes a level of its own (R4). -/
def State.driveLines (s : State) (mask levels : LineSet) : State :=
  s.mapLines mask fun i l => l.drive (levels.getLsbD i)

/-- Every line of a set takes one level (R6, R35). -/
def State.driveAll (s : State) (mask : LineSet) (level : Bool) : State :=
  s.mapLines mask fun _ l => l.drive level

/-- Every line of a set is inverted (R5). -/
def State.toggleLines (s : State) (mask : LineSet) : State := s.mapLines mask fun _ l => l.toggle

/-- The rest levels of a set of lines are replaced; the driven levels stay (R53, R55). -/
def State.storeRest (s : State) (mask levels : LineSet) : State :=
  s.mapLines mask fun i l => { l with rest := levels.getLsbD i }

/-- Every line of a set goes to its rest level. -/
def State.restLines (s : State) (mask : LineSet) : State := s.mapLines mask fun _ l => l.toRest

/-- Rest application: every line of the track's group goes to its rest level (R29). -/
def State.applyRest (s : State) (t : TrackId) : State := s.restLines s.tracks[t].group

/-- The track that owns a line: the one whose group holds it (R122). -/
def State.lineOwner (s : State) (l : LineId) : Option TrackId :=
  allTracks.find? fun t => s.tracks[t].group.getLsbD l

/-! ## The page pool -/

/-- The number of FREE pages (R10). -/
def State.freePages (s : State) : Nat := s.pages.toList.countP (·.state == .free)

/-- The slots held by pages (R9). -/
def State.usedSlots (s : State) : Nat := (s.pages.toList.map (·.steps.length)).sum

/-- The number of free slots: 1024 less the steps held (R9, R19). -/
def State.freeSlots (s : State) : Nat := Config.stepSlots - s.usedSlots

/-- A page leaving its track by retirement or flush: SEALED with its contents, owner cleared, when it has RETAIN; FREE and
cleared, its slots returned, when it has not (R22, R23). -/
def Page.leave (p : Page) : Page :=
  if p.retain then { p with state := .sealed, owner := none } else Page.cleared

/-- The pages of a list leave their track, in order (R23). -/
def State.leavePages (s : State) (ps : List PageId) : State :=
  ps.foldl (fun s p => s.modifyPage p Page.leave) s

/-- A track's queue is flushed (R23, R78). -/
def State.flush (s : State) (t : TrackId) : State :=
  (s.leavePages s.tracks[t].queue).modifyTrack t fun tr => { tr with queue := [] }

/-! ## Consumers of a trigger (R84) -/

/-- Whether a track waits on a trigger, and how: START when ARMED in form ON_TRIGGER on it, GATE when STALLED at a gate that
names it and not yet released (R84, R100). -/
def Track.waitsOn (tr : Track) (k : TriggerId) : Option Mark :=
  match tr.state with
  | .armed ⟨.onTrigger k' _, _⟩ => if k' = k then some .start else none
  | .stalled _ g => if g.trigger = k ∧ g.resume = none then some .gate else none
  | _ => none

/-- The consumers of a trigger, T0 first (R84). -/
def State.consumers (s : State) (k : TriggerId) : List TrackId :=
  allTracks.filter fun t => (s.tracks[t].waitsOn k).isSome

/-- Whether a track is ARMED in form ON_EPOCH (R111, R114). -/
def Track.onEpoch (tr : Track) : Bool :=
  match tr.state with
  | .armed ⟨.onEpoch _ _, _⟩ => true
  | _ => false

end Sys2Proof.Machine
end

