-- ==== Sys2Proof/Machine/Firing.lean ====
section
/-! DEFINITION. What a trigger unit does with a firing: consumption (R92), firing and the release of its consumers (R90,
R91), overrun (R93), and an accepted edge of its line (R89). -/

namespace Sys2Proof.Machine

/-- The latch a trigger takes when a firing ends and it watches on: ARMED with an edge sense; with a level sense BLOCKED
while the line's sensed level is the active level, ARMED otherwise (R90, R92). -/
def State.latchAfterFiring (s : State) (c : TriggerConfig) : Latch :=
  match c.sense.activeLevel with
  | none => .armed
  | some level => if s.lines[c.line].sensedLevel = level then .blocked else .armed

/-- The firing of a trigger is consumed: a LIMITED count falls by 1 and disarms the trigger at 0, otherwise the trigger
watches on (R92). -/
def State.consume (s : State) (k : TriggerId) : State :=
  match s.triggers[k].config with
  | none => s.setLatch k .disarmed
  | some c =>
    if c.limited then
      s.modifyTrigger k fun _ =>
        ⟨if c.remaining - 1 = 0 then .disarmed else s.latchAfterFiring c, some { c with remaining := c.remaining - 1 }⟩
    else s.setLatch k (s.latchAfterFiring c)

/-- The armed start that a release with stamp f and acceptance time c gives: f plus the offset, LATE clear, when that lies at
or after c plus 4; otherwise c plus 4, LATE set (R67, R68, R91). -/
def releasedStart (f c : Stamp) (offset : Word32) : StartForm :=
  if atOrAfter (f + ticks offset) (c + tickCount Config.triggerLatency) then .timed (f + ticks offset) false
  else .timed (c + tickCount Config.triggerLatency) true

/-- What a firing with stamp f and acceptance time c makes of a waiting track's state: its start becomes TIMED, or its page
time is set to resume at c plus 4 and its gate's expiry is removed (R91, R100). -/
def TrackState.released (st : TrackState) (f c : Stamp) : TrackState :=
  match st with
  | .armed ⟨.onTrigger _ offset, reply⟩ => .armed ⟨releasedStart f c offset, reply⟩
  | .stalled p g => .stalled p { g with expiry := none, resume := some (c + tickCount Config.triggerLatency) }
  | other => other

/-- One consumer is released (R91). -/
def State.releaseTrack (s : State) (f c : Stamp) (t : TrackId) : State :=
  s.setTrackState t (s.tracks[t].state.released f c)

/-- A trigger with configuration g fires with stamp f and acceptance time c: Trigger Fired is queued if its report flag asks
for it; waiting tracks are all released and the firing is consumed; with none waiting the latch holds it (R90). -/
def State.fire (s : State) (k : TriggerId) (g : TriggerConfig) (f c : Stamp) : State :=
  let waiting := s.consumers k
  let s := (s.setLatch k (.fired f c false)).queueEventIf g.report (.triggerFired k g.line f waiting.length)
  if waiting.isEmpty then s else (waiting.foldl (fun s t => s.releaseTrack f c t) s).consume k

/-- An accepted edge reaches a trigger: by its latch state and by whether the edge matches its sense (R89, R93). A matching edge
cannot reach a BLOCKED trigger (R89); there nothing changes, which is the model's choice (log entry 24). -/
def State.edgeAtTrigger (s : State) (rising : Bool) (f c : Stamp) (k : TriggerId) : State :=
  match s.triggers[k].config with
  | none => s
  | some g =>
    match s.triggers[k].latch with
    | .disarmed => s
    | .armed => if g.sense.matchesEdge rising then s.fire k g f c else s
    | .fired f0 c0 overrun =>
      if g.sense.matchesEdge rising && !overrun then
        (s.setLatch k (.fired f0 c0 true)).queueEvent (.triggerOverrun k f)
      else s
    | .blocked => if g.sense.matchesEdge rising then s else s.setLatch k .armed

end Sys2Proof.Machine
end

