-- ==== Sys2Proof/Machine/Journal.lean ====
section
/-! DEFINITION. The capture journal: recording an edge (R134, R136, R144), Read Journal (R138 to R141) and Set Journal
(R143). -/

namespace Sys2Proof.Machine

/-- The fields of a Read Journal reply: records held, gap count, and the oldest records held, at most m (R140, R188). -/
def Journal.readFields (j : Journal) (m : Nat) : List Byte :=
  u16 j.records.length ++ le32 ((j.gap.map Gap.count).getD 0) ++ u8 (j.records.take m).length ++
    (j.records.take m).flatMap Record.bytes

/-- The waiting read, if any, is answered OK with the oldest records held (R141). -/
def State.completeRead (s : State) : State :=
  match s.journal.waiting with
  | none => s
  | some w =>
    ({ s with journal := { s.journal with waiting := none } }).compose .readJournal .ok (s.journal.readFields w.maximum)

/-- Journal Notice is queued, and the notice flag set, when the records held are at or above a watermark that is not 0, the
flag is clear and a session is open (R144). -/
def State.noticeJournal (s : State) : State :=
  if s.journal.watermark ≠ 0 ∧ s.journal.watermark ≤ s.journal.records.length ∧ !s.journal.notice ∧ s.isOpen then
    ({ s with journal := { s.journal with notice := true } }).queueEvent (.journalNotice s.journal.records.length)
  else s

/-- A capturing edge with stamp f reaches the journal from a line (R134): recorded while fewer than 256 records are held,
then examined against the watermark and given to a waiting read; otherwise counted in the pending gap, whose count stops at
2^32-1 without taking a seq (R136). -/
def State.recordEdge (s : State) (l : LineId) (rising : Bool) (f : Stamp) : State :=
  let j := s.journal
  if j.records.length < Config.journalRecords then
    (({ s with journal := { j with
        records := j.records ++ [(⟨j.seq, 1, if rising then .rise else .fall, l, f⟩ : Record)]
        seq := j.seq + 1 } }).noticeJournal).completeRead
  else
    match j.gap with
    | none => { s with journal := { j with gap := some ⟨1, j.seq, f⟩, seq := j.seq + 1 } }
    | some g =>
      if g.count = 0xFFFFFFFF then s
      else { s with journal := { j with gap := some { g with count := g.count + 1 }, seq := j.seq + 1 } }

/-- The journal after an acknowledgement of a records: the oldest a removed, and a pending gap written as a GAP record when a
was at least 1 (R137, R139 steps 1 and 2). -/
def Journal.acknowledge (j : Journal) (a : Nat) : Journal :=
  match j.gap with
  | some g =>
    if a = 0 then j
    else { j with records := j.records.drop a ++ [(⟨g.firstSeq, g.count, .gap, 0, g.firstStamp⟩ : Record)], gap := none }
  | none => { j with records := j.records.drop a }

/-- Whether an accepted Read Journal waits: no record is held after the acknowledgement and the wait is not 0 (R138 check 4,
R139 step 5). -/
def Journal.wouldWait (j : Journal) (a wait : Nat) : Bool := (j.acknowledge a).records.isEmpty && wait != 0

/-- Read Journal (R138, R139, R140). The waiting read alone refuses a second one: a reply composed and not yet taken does not,
which is the model's choice (log entry 31). -/
def answerReadJournal (ack : Word16) (maximum reserved : Byte) (wait : Word16) (s : State) : State × Answer :=
  let j := s.journal
  if reserved ≠ 0 ∨ 14 < maximum.toNat ∨ 5000 < wait.toNat then (s, .say .badValue (j.readFields 0))
  else if j.waiting.isSome then (s, .say .busy (j.readFields 0))
  else if j.records.length < ack.toNat then (s, .say .badValue (j.readFields 0))
  else if j.wouldWait ack.toNat wait.toNat then
    if !s.slotFree then (s, .say .windowFull (j.readFields 0))
    else
      ({ s with journal := { j.acknowledge ack.toNat with
          notice := false
          waiting := some ⟨maximum.toNat, wait.toNat * Config.periodsPerMs⟩ } }, .deferred .readJournal)
  else
    let j' := { j.acknowledge ack.toNat with notice := false }
    ({ s with journal := j' }, .say .ok (j'.readFields maximum.toNat))

/-- The waiting read's wait runs out: OK with zero records, held count 0 and gap count 0 (R141). -/
def State.expireRead (s : State) : State :=
  match s.journal.waiting with
  | none => s
  | some _ => ({ s with journal := { s.journal with waiting := none } }).compose .readJournal .ok (zeros 7)

/-- Set Journal (R143, R188). -/
def answerSetJournal (watermark : Word16) (s : State) : State × Answer :=
  if 256 < watermark.toNat then (s, .say .badValue (zeros 4))
  else
    ({ s with journal := { s.journal with watermark := watermark.toNat } },
      .say .ok (le16 watermark ++ u16 s.journal.records.length))

end Sys2Proof.Machine
end

