-- ==== Sys2Proof/Machine/Lines.lean ====
section
/-! DEFINITION. The line stage: Configure Line (R126, R127), Read Lines (R128), the acceptance of a candidate with the delivery
of its edge (R123 to R125), and the end of a sample (R123, R135). -/

namespace Sys2Proof.Machine

/-- The fields of a Configure Line reply (R126, R188): line, role, level. A refusal gives the role and no level. -/
def State.lineFields (s : State) (line : Byte) (withLevel : Bool) : List Byte :=
  match idBelow 16 line with
  | none => [line] ++ zeros 2
  | some l => [line] ++ u8 s.lines[l].role.code ++ if withLevel then levelByte s.lines[l].level else u8 0

/-- Whether a trigger that is not DISARMED is bound to a line (R126 check 3). -/
def State.holdsLine (s : State) (l : LineId) (k : TriggerId) : Bool :=
  match s.triggers[k].config, s.triggers[k].latch with
  | none, _ => false
  | some _, .disarmed => false
  | some c, .armed | some c, .fired _ _ _ | some c, .blocked => decide (c.line = l)

/-- The role a line takes when made INPUT, by its role before (R124, R127): from another role the sensed level is the pin's;
from INPUT with the same filter any candidate is kept; with a new filter it is taken again with stamp now if the pin
differs. -/
def LineRole.toInput (role : LineRole) (filter : Byte) (capture : CaptureEdges) (pin : Bool) (now : Stamp) : LineRole :=
  match role with
  | .unused | .output _ => .input filter capture pin none
  | .input filter' _ sensed candidate =>
    .input filter capture sensed
      (if filter = filter' then candidate else if pin = sensed then none else some now)

/-- An accepted Configure Line (R127). The role code is one of the three. -/
def State.setLine (s : State) (l : LineId) (role : Nat) (rest : Bool) (filter : Byte) (capture : CaptureEdges) : State :=
  s.modifyLine l fun ln =>
    ⟨rest,
      match role with
      | 0 => .unused
      | 1 => .output rest
      | _ => ln.role.toInput filter capture (s.pinLevels.getLsbD l) s.timeline⟩

/-- The 4 bytes of a line in Read Lines (R128, R188): status, owner, filter, the triggers that hold it. -/
def State.lineReport (s : State) (l : LineId) : List Byte :=
  let ln := s.lines[l]
  ln.statusByte ++
    (match s.lineOwner l with
      | none => u8 0
      | some t => u8 (128 + t.val)) ++
    (match ln.role with
      | .input filter _ _ _ => [filter]
      | .unused | .output _ => u8 0) ++
    u8 ((allTriggers.map fun k => if s.holdsLine l k then 2 ^ k.val else 0).sum)

/-- Read Lines (R128). -/
def answerReadLines (s : State) : State × Answer :=
  (s, .say .ok (le48 s.timeline ++ allLines.flatMap s.lineReport))

/-- Who receives an accepted edge of a line (R125). -/
inductive Receiver where
  | journal
  | trigger (k : TriggerId)
  deriving DecidableEq, Repr

/-- A receiver acts on an accepted edge (R125). -/
def State.deliver (s : State) (l : LineId) (rising : Bool) (f c : Stamp) (r : Receiver) : State :=
  match r with
  | .journal => s.recordEdge l rising f
  | .trigger k => s.edgeAtTrigger rising f c k

/-- The receivers of an edge: the journal when the capture edges name its direction, and each trigger bound to the line that
is not DISARMED (R125). -/
def State.receivers (s : State) (l : LineId) (capture : CaptureEdges) (rising : Bool) : List Receiver :=
  (if capture.names rising then [Receiver.journal] else []) ++
    (allTriggers.filter (s.holdsLine l)).map Receiver.trigger

/-- The candidate of an input line is accepted: the sensed level changes, the candidate is cleared, and the edge, with stamp
f and acceptance time f plus the filter, is delivered to its receivers, in a free order (R123 to R125, R154; log entry 5). -/
def State.acceptEdge (s : State) (l : LineId) : State :=
  match s.lines[l].role with
  | .input filter capture sensed (some f) =>
    let s1 := { s.modifyLine l fun ln => { ln with role := .input filter capture (!sensed) none } with
      choices := s.choices + 1 }
    (freeOrder Config.receiverOrder s.choices (s1.receivers l capture (!sensed))).foldl
      (fun s r => s.deliver l (!sensed) f (f + filter.setWidth 48) r) s1
  | _ => s

/-- The role of an input line after a sample of its pin at now: a sample that differs from the sensed level takes a candidate
when none is held; a sample that equals it drops the candidate (R123). -/
def LineRole.sampled (role : LineRole) (level : Bool) (now : Stamp) : LineRole :=
  match role with
  | .input filter capture sensed candidate =>
    .input filter capture sensed (if level = sensed then none else some (candidate.getD now))
  | .unused => .unused
  | .output driven => .output driven

/-- Whether a line holds a candidate that the present sample accepts: its filter is 0, or its acceptance time, its stamp plus
the filter, has come (R123). -/
def State.candidateDue (s : State) (l : LineId) : Bool :=
  match s.lines[l].role with
  | .input filter _ _ (some f) => decide (filter = 0) || !ahead (f + filter.setWidth 48) s.timeline
  | .unused | .output _ | .input _ _ _ none => false

/-- Whether a line holds a candidate with a filter of 0, which the sample that found it accepts (R123). -/
def State.unfiltered (s : State) (l : LineId) : Bool :=
  match s.lines[l].role with
  | .input filter _ _ (some _) => decide (filter = 0)
  | .unused | .output _ | .input _ _ _ none => false

/-- Whether the sample that ends accepts the candidate of a line: a row EDGE_ACCEPTANCE has told so, or the candidate is due and
the sample accepts one of filter 0 (R123; log entry 15). Without one, each candidate that is due has its own row. -/
def State.sampleAccepts (s : State) (l : LineId) : Bool :=
  s.sample.accepted.getLsbD l || (allLines.any s.unfiltered && s.candidateDue l)

/-- A sample ends: it accepts its candidates, in line number order, L0 first (R123, R135). -/
def State.endSample (s : State) : State :=
  (allLines.filter s.sampleAccepts).foldl State.acceptEdge { s with sample := Sample.fresh }

/-- A candidate that a line holds with a filter of 0 is accepted by the sample that found it (R123). -/
def State.acceptUnfiltered (s : State) (l : LineId) : State := if s.unfiltered l then s.endSample else s

/-- Configure Line (R126, R127). A candidate that it takes with a new filter of 0 is accepted at the sample that found it, so
before the reply (R123; log entry 30). -/
def answerConfigureLine (line role rest filter capture : Byte) (s : State) : State × Answer :=
  match idBelow 16 line, CaptureEdges.ofByte capture with
  | some l, some c =>
    if 2 < role.toNat ∨ 1 < rest.toNat ∨ (role.toNat ≠ 2 ∧ (filter ≠ 0 ∨ c ≠ .none)) then
      (s, .say .badValue (s.lineFields line false))
    else if (s.lineOwner l).isSome then (s, .say .busy (s.lineFields line false))
    else if allTriggers.any (s.holdsLine l) then (s, .say .busy (s.lineFields line false))
    else
      let s' := (s.setLine l role.toNat (rest == 1) filter c).acceptUnfiltered l
      (s', .say .ok (s'.lineFields line true))
  | _, _ => (s, .say .badValue (s.lineFields line false))

end Sys2Proof.Machine
end

