-- ==== Sys2Proof/Machine/Playback.lean ====
section
/-! DEFINITION. Playback: a page made active (R32), steps, pulse ends and gates (R33 to R37, R99 to R103), repetitions (R38,
R39), the run end and its outcomes (R40 to R49), an abort (R71), and the meanings of the tracks' own timed actions. -/

namespace Sys2Proof.Machine

/-! ## Entering and leaving a page -/

/-- A pending configuration is applied: policy and report options replaced, rest levels of the group stored (R55). -/
def State.applyPending (s : State) (t : TrackId) : State :=
  match s.tracks[t].pendingConfig with
  | none => s
  | some c =>
    (s.storeRest s.tracks[t].group c.rest).modifyTrack t fun tr =>
      { tr with policy := c.policy, reportStarted := c.reportStarted, reportRetired := c.reportRetired,
                pendingConfig := none }

/-- The active page is retired with an outcome, the tick being its end stamp: it leaves the track, and Page Retired is
queued if the report option RETIRED is set (R22, R40). -/
def State.retire (s : State) (t : TrackId) (p : Playback) (outcome : RetireOutcome) : State :=
  (s.modifyPage p.page Page.leave).queueEventIf s.tracks[t].reportRetired
    (.pageRetired t p.page s.timeline outcome p.repsPlayed)

/-- A track enters IDLE, HOLDING or FAULTED: hold flag, looping flag and stop request clear, no pending configuration (R28,
R75). -/
def State.settle (s : State) (t : TrackId) (st : TrackState) : State :=
  s.modifyTrack t fun tr =>
    { tr with state := st, hold := false, looping := false, stopRequest := false, pendingConfig := none }

/-- The playback context of a page made active at a stamp (R32). -/
def Playback.begin (p : PageId) (start : Stamp) : Playback := ⟨p, start, start, 0, 0, 0, [], 0⟩

/-- The front page of the queue becomes active with a start stamp: it leaves the queue, passes to ACTIVE, the context is set,
the looping flag cleared, and Track Started is queued if the report option STARTED is set (R21, R32). With an empty queue
nothing happens; ARMED and an advance never have one (R28; log entry 24). -/
def State.makeActive (s : State) (t : TrackId) (start : Stamp) (late : Bool) : State :=
  match s.tracks[t].queue with
  | [] => s
  | p :: rest =>
    ((s.modifyPage p fun pg => { pg with state := .active, owner := some t }).modifyTrack t fun tr =>
        { tr with state := .playing (Playback.begin p start), queue := rest, looping := false }).queueEventIf
      s.tracks[t].reportStarted (.trackStarted t p start late)

/-! ## Steps -/

/-- The pulse ends with one more, in order of end offset, after those with an equal one (R35). -/
def insertPulse (e : PulseEnd) : List PulseEnd → List PulseEnd
  | [] => [e]
  | x :: rest => if x.offset.toNat ≤ e.offset.toNat then x :: insertPulse e rest else e :: x :: rest

/-- The pending pulse end that a PULSE step makes: its offset plus its width, its lines, the opposite level (R35). -/
def pulseEnd (offset : Word32) (lines : LineSet) (level : Bool) (width : Word32) : PulseEnd :=
  ⟨offset + width, lines, !level⟩

/-- A gate faults its track at this tick: Gate Released if reported, the pending configuration applied, the page retired
FAULTED, a Stop Track END answered ABORTED, the track FAULTED at rest, Track Fault queued (R102). -/
def State.gateFault (s : State) (t : TrackId) (p : Playback) (k : TriggerId) (report : Bool) (stall : Stamp) : State :=
  ((((((s.queueEventIf report (.gateReleased t k .timeout stall)).applyPending t).retire t p .faulted).composeAborted
    (.stopEnd t)).settle t .faulted).applyRest t).queueEvent (.trackFault t .gateTimeout s.timeline)

/-- Page time reaches a GATE step, the tick being g: a FIRED latch is consumed and passes the track; a DISARMED trigger
applies the action at once; an ARMED or BLOCKED one stalls the track among its consumers (R99, R104). The context given
already names the step after the gate (R37). -/
def State.reachGate (s : State) (t : TrackId) (p : Playback) (index : Nat) (offset : Word32) (k : TriggerId)
    (timeout : Word32) (action : GateAction) (report : Bool) : State :=
  match s.triggers[k].latch with
  | .fired _ _ _ => (s.consume k).queueEventIf report (.gateReleased t k .fired 0)
  | .disarmed =>
    match action with
    | .continue => s.queueEventIf report (.gateReleased t k .timeout 0)
    | .fault => s.gateFault t p k report 0
  | .armed | .blocked =>
    s.setTrackState t (.stalled p ⟨index, offset, k, action, report, s.timeline,
      if timeout = 0 then none else some (s.timeline + ticks timeout), none⟩)

/-- One step takes effect on a PLAYING track whose context is p, at the tick that is its stamp (R4 to R8, R36). The next step
index passes it (R34). -/
def State.takeStep (s : State) (t : TrackId) (p : Playback) (st : Step) : State :=
  let p' := { p with nextStep := p.nextStep + 1 }
  match st with
  | .drive _ lines levels => (s.driveLines lines levels).setTrackState t (.playing p')
  | .toggle _ lines => (s.toggleLines lines).setTrackState t (.playing p')
  | .pulse offset lines level width =>
    (s.driveAll lines level).setTrackState t
      (.playing { p' with pulseEnds := insertPulse (pulseEnd offset lines level width) p.pulseEnds })
  | .mark _ code => (s.setTrackState t (.playing p')).queueEvent (.mark t p.page p.nextStep code s.timeline)
  | .gate offset k timeout action report =>
    (s.setTrackState t (.playing p')).reachGate t p' p.nextStep offset k timeout action report

/-- The steps whose offset is the page time, in list order, until a GATE stops page time or they are exhausted (R34). -/
def State.takeSteps (t : TrackId) (pageTime : Nat) : List Step → State → State
  | [], s => s
  | st :: rest, s =>
    match s.tracks[t].state with
    | .playing p =>
      if st.offset.toNat = pageTime then State.takeSteps t pageTime rest (s.takeStep t p st) else s
    | _ => s

/-- A PLAYING track goes on from its next step with the steps at a page time (R34). -/
def State.playFrom (s : State) (t : TrackId) (pageTime : Nat) : State :=
  match s.tracks[t].state with
  | .playing p => State.takeSteps t pageTime (s.pages[p.page].steps.drop p.nextStep) s
  | _ => s

/-! ## Pulse ends -/

/-- The pulse ends of a list take effect in its order (R34, R35). -/
def State.endPulses (s : State) (ends : List PulseEnd) : State :=
  ends.foldl (fun s e => s.driveAll e.lines e.level) s

/-- The pending pulse ends at a page time take effect and leave the list (R35). -/
def State.pulsesDue (s : State) (t : TrackId) (p : Playback) (pageTime : Nat) : State :=
  (s.endPulses (p.pulseEnds.filter fun e => e.offset.toNat == pageTime)).setTrackState t
    (.playing { p with pulseEnds := p.pulseEnds.filter fun e => e.offset.toNat != pageTime })

/-! ## Repetitions and the run end -/

/-- The fields of a Stop Track reply (R188): track, state, end stamp. Each is 0 where the rule of the reply does not give it. -/
def stopFields (track state : Nat) (endStamp : Stamp) : List Byte := u8 track ++ u8 state ++ le48 endStamp

/-- The outcome at a run end when nothing is left to play and neither hold nor stop applies: the underrun policy (R44 to
R47). The context p counts the repetition that has just ended. -/
def State.underrun (s : State) (t : TrackId) (p : Playback) : State :=
  match s.tracks[t].policy with
  | .holdLevels =>
    ((s.retire t p .complete).settle t (.holding none)).queueEvent (.trackUnderrun t .holdLevels s.timeline)
  | .rest =>
    ((((s.retire t p .complete).settle t .idle).applyRest t).queueEvent (.trackUnderrun t .rest s.timeline)).queueEvent
      (.trackStopped t s.timeline .underrun)
  | .fault =>
    (((s.retire t p .complete).settle t .faulted).applyRest t).queueEvent (.trackFault t .underrun s.timeline)
  | .repeatLast =>
    (s.modifyTrack t fun tr =>
        { tr with looping := true
                  state := .playing { p with runStart := s.timeline, repStart := s.timeline, repIndex := 0,
                                             nextStep := 0, stall := 0 } }).queueEventIf
      (!s.tracks[t].looping) (.trackUnderrun t .repeatLast s.timeline)

/-- The run end, the tick being the end stamp: the pending configuration is applied, the first condition that holds decides
the outcome, the page is retired COMPLETE unless it loops, and the outcome is carried out (R40 to R49). -/
def State.runEnd (s : State) (t : TrackId) (p : Playback) : State :=
  let s := s.applyPending t
  if s.tracks[t].stopRequest then
    ((((s.retire t p .complete).settle t .idle).applyRest t).compose (.stopEnd t) .ok
      (stopFields 0 0 s.timeline)).queueEvent (.trackStopped t s.timeline .atEnd)
  else if s.pages[p.page].holdAfter || s.tracks[t].hold then
    ((s.retire t p .complete).settle t (.holding none)).queueEvent (.trackHeld t s.timeline)
  else if s.tracks[t].queue ≠ [] then (s.retire t p .complete).makeActive t s.timeline false
  else s.underrun t p

/-- Whether another repetition of the run begins at a repetition's end: repetitions remain of a counted page (R38); a page
with repeat count 0 is given nothing to end it (R39). -/
def State.repeats (s : State) (t : TrackId) (p : Playback) : Bool :=
  let n := s.pages[p.page].repeats.toNat
  if n = 0 then s.tracks[t].queue.isEmpty && !s.tracks[t].hold && !s.tracks[t].stopRequest
  else decide (p.repIndex + 1 < n)

/-- Boundary processing when page time has reached the period: the repetition ends, and the next begins at this tick or the
run ends (R38, R39). -/
def State.boundary (s : State) (t : TrackId) (p : Playback) : State :=
  let p' := { p with repsPlayed := min (p.repsPlayed + 1) 4294967295 }
  if s.repeats t p then
    s.setTrackState t
      (.playing { p' with repIndex := p.repIndex + 1, repStart := s.timeline, nextStep := 0, stall := 0 })
  else s.runEnd t p'

/-- The next page time at which a PLAYING track acts: its first pending pulse end, its next step's offset or the period,
whichever is least (R34). -/
def State.nextPoint (s : State) (p : Playback) : Nat :=
  let pg := s.pages[p.page]
  let points := p.pulseEnds.map (·.offset.toNat) ++ ((pg.steps.drop p.nextStep).take 1).map (·.offset.toNat)
  points.foldl min pg.period.toNat

/-- The actions of a PLAYING track at a tick: the pulse ends due, then boundary processing at the period, then the steps at
the page time (R34). -/
def State.trackActions (s : State) (t : TrackId) : State :=
  match s.tracks[t].state with
  | .playing p =>
    let pageTime := s.nextPoint p
    let s' := s.pulsesDue t p pageTime
    if pageTime = s.pages[p.page].period.toNat then
      (s'.boundary t { p with pulseEnds := p.pulseEnds.filter fun e => e.offset.toNat != pageTime }).playFrom t 0
    else s'.playFrom t pageTime
  | _ => s

/-! ## Gates -/

/-- Page time resumes at this tick on a track STALLED at gate g: Gate Released if reported, the stall added, the track PLAYING
with the steps left at the gate's offset (R100, R101, R104). -/
def State.resumePage (s : State) (t : TrackId) (p : Playback) (g : GateWait) (outcome : GateOutcome) : State :=
  ((s.setTrackState t (.playing { p with stall := p.stall + (s.timeline - g.reached) })).queueEventIf g.report
    (.gateReleased t g.trigger outcome (s.timeline - g.reached))).playFrom t g.offset.toNat

/-- The gate at which a track is STALLED ends without a firing at this tick, by expiry or Disarm Trigger: its action applies,
CONTINUE or FAULT (R101, R102, R103). -/
def State.endGate (s : State) (t : TrackId) : State :=
  match s.tracks[t].state with
  | .stalled p g =>
    match g.action with
    | .continue => s.resumePage t p g .timeout
    | .fault => s.gateFault t p g.trigger g.report (s.timeline - g.reached)
  | _ => s

/-- A track released at its gate by a firing resumes at this tick (R100). -/
def State.resumeReleased (s : State) (t : TrackId) : State :=
  match s.tracks[t].state with
  | .stalled p g => s.resumePage t p g .fired
  | _ => s

/-! ## Starts -/

/-- The fields of a deferred Start Track reply answered OK: the track, bit 1 set and LATE, the page, the start stamp (R66,
R188). -/
def startedFields (t : TrackId) (p : PageId) (start : Stamp) (late : Bool) : List Byte :=
  u8 t.val ++ u8 0 ++ u8 0 ++ flagByte [late, true] ++ u8 p.val ++ le48 start ++ u8 0 ++ u32 0

/-- An armed start of form TIMED takes effect: the front page becomes active with the start time as start stamp, the deferred
start reply, if any, is composed, and the steps at offset 0 take effect (R66, R67). -/
def State.startEffect (s : State) (t : TrackId) : State :=
  match s.tracks[t].state, s.tracks[t].queue with
  | .armed ⟨.timed start late, _⟩, p :: _ =>
    ((s.makeActive t start late).compose (.start t) .ok (startedFields t p start late)).playFrom t 0
  | _, _ => s

/-- A release start takes effect: the front page becomes active with LATE clear (R77). -/
def State.releaseEffect (s : State) (t : TrackId) : State :=
  match s.tracks[t].state with
  | .holding (some start) => (s.makeActive t start false).playFrom t 0
  | _ => s

/-- A start is cancelled: the armed start removed, the hold flag clear, the track IDLE, a deferred start reply answered
ABORTED, Start Cancelled queued (R69). -/
def State.cancelStart (s : State) (t : TrackId) (reason : CancelReason) : State :=
  ((s.settle t .idle).composeAborted (.start t)).queueEvent (.startCancelled t reason)

/-! ## Abort -/

/-- The active page of a PLAYING or STALLED track is retired ABORTED; its pending pulse ends are dropped (R71 step 2). -/
def State.abortPage (s : State) (t : TrackId) : State :=
  match s.tracks[t].state with
  | .playing p | .stalled p _ => s.retire t p .aborted
  | _ => s

/-- Stop Track ABORT's steps 1 to 4 and 6, which session end takes too (R71, R82). -/
def State.abortTrack (s : State) (t : TrackId) : State :=
  (((s.applyPending t).abortPage t).settle t .idle).applyRest t

end Sys2Proof.Machine
end

