-- ==== Sys2Proof/Machine/Pages.lean ====
section
/-! DEFINITION. The page pool's answers to its requests: Open Page, Append Steps, Seal Page, Discard Page, Read Page and Read
Pool (R11 to R19). An answer is what step 6 of R168 does once the dispatcher has let the request through. -/

namespace Sys2Proof.Machine

/-- The two counts that Open Page and Discard Page report: free pages and free slots. -/
def State.poolCounts (s : State) : List Byte := u8 s.freePages ++ u16 s.freeSlots

/-- Open Page (R11): the lowest-numbered FREE page becomes OPEN. A reserved byte that is not 0 and an invalid field are both
BAD_VALUE (R168 step 6). -/
def answerOpenPage (period : Word32) (repeats : Word16) (flags reserved : Byte) (s : State) : State × Answer :=
  if reserved ≠ 0 ∨ period.toNat < 16 ∨ !onlyFlags 2 flags then (s, .say .badValue (u8 0 ++ s.poolCounts))
  else
    match (List.finRange 64).find? fun p => s.pages[p].state == .free with
    | none => (s, .say .noSpace (u8 0 ++ s.poolCounts))
    | some p =>
      let s' := s.modifyPage p fun _ => ⟨.opened, period, repeats, flag flags 0, flag flags 1, [], 0, 0, none⟩
      (s', .say .ok (u8 p.val ++ s'.poolCounts))

/-- The fields of an Append Steps reply (R14, R188): page, step count, free slots, invalid step index. -/
def State.appendFields (s : State) (page : Byte) (invalid : Nat) : List Byte :=
  [page] ++ u8 (((idBelow 64 page).map fun p => s.pages[p].steps.length).getD 0) ++ u16 s.freeSlots ++ u8 invalid

/-- The offset of a page's last step, 0 for a page without steps (R13). -/
def Page.lastOffset (p : Page) : Nat := (p.steps.getLast?.map fun st => st.offset.toNat).getD 0

/-- Append Steps (R12, R13, R14): all of the request's steps join the page, or none. -/
def answerAppendSteps (page reserved : Byte) (records : List StepRecord) (s : State) : State × Answer :=
  if reserved ≠ 0 then (s, .say .badValue (s.appendFields page 0))
  else
    match idBelow 64 page with
    | none => (s, .say .badValue (s.appendFields page 0))
    | some p =>
      match s.pages[p].state with
      | .free => (s, .say .notFound (s.appendFields page 0))
      | .sealed | .queued | .active => (s, .say .busy (s.appendFields page 0))
      | .opened =>
        match checkSteps s.pages[p].period 0 s.pages[p].lastOffset records with
        | .error i => (s, .say .badValue (s.appendFields page i))
        | .ok steps =>
          if Config.pageSteps < s.pages[p].steps.length + steps.length then (s, .say .noSpace (s.appendFields page 0))
          else if s.freeSlots < steps.length then (s, .say .noSpace (s.appendFields page 0))
          else
            let s' := s.modifyPage p fun pg => { pg with steps := pg.steps ++ steps }
            (s', .say .ok (s'.appendFields page 0))

/-- The footprint of a step list: the lines its DRIVE, TOGGLE and PULSE steps touch (R16). -/
def footprintOf (steps : List Step) : LineSet := steps.foldl (fun m st => m ||| st.lines) 0

/-- The gate set of a step list: the triggers its GATE steps name (R16). -/
def gateSetOf (steps : List Step) : TriggerSet := steps.foldl (fun m st => m ||| st.gates) 0

/-- Seal Page (R15, R16). -/
def answerSealPage (page : Byte) (s : State) : State × Answer :=
  match idBelow 64 page with
  | none => (s, .say .badValue (zeros 5))
  | some p =>
    let pg := s.pages[p]
    match pg.state with
    | .free => (s, .say .notFound (zeros 5))
    | .sealed | .queued | .active => (s, .say .busy (zeros 5))
    | .opened =>
      (s.modifyPage p fun pg =>
          { pg with state := .sealed, footprint := footprintOf pg.steps, gateSet := gateSetOf pg.steps },
        .say .ok (u8 p.val ++ u8 pg.steps.length ++ le16 (footprintOf pg.steps) ++ [(gateSetOf pg.steps).setWidth 8]))

/-- Discard Page (R17): an OPEN or SEALED page becomes FREE and returns its slots. -/
def answerDiscardPage (page : Byte) (s : State) : State × Answer :=
  match idBelow 64 page with
  | none => (s, .say .badValue (zeros 4))
  | some p =>
    match s.pages[p].state with
    | .free => (s, .say .notFound (zeros 4))
    | .queued | .active => (s, .say .busy (zeros 4))
    | .opened | .sealed =>
      let s' := s.modifyPage p fun _ => Page.cleared
      (s', .say .ok (u8 s.pages[p].steps.length ++ s'.poolCounts))

/-- Read Page (R18, R188): the record and up to 19 steps from the first step index; the gate set stands in the status byte. -/
def answerReadPage (page first : Byte) (s : State) : State × Answer :=
  match idBelow 64 page with
  | none => (s, .say .badValue (zeros 11))
  | some p =>
    if 127 < first.toNat then (s, .say .badValue (zeros 11))
    else
      let pg := s.pages[p]
      (s, .reply .ok
        (u8 (p.val + 64 * pg.retain.toNat + 128 * pg.holdAfter.toNat) ++ pg.stateByte ++ u8 pg.steps.length ++
          le16 pg.footprint ++ le32 pg.period ++ le16 pg.repeats ++
          ((pg.steps.drop first.toNat).take 19).flatMap fun st => st.record.bytes)
        pg.gateSet)

/-- Read Pool (R19, R188). -/
def answerReadPool (s : State) : State × Answer :=
  (s, .say .ok (s.poolCounts ++ s.pages.toList.flatMap Page.stateByte))

end Sys2Proof.Machine
end

