-- ==== Sys2Proof/Machine/Events.lean ====
section
/-! DEFINITION. The event unit's answers to its requests, Ack Events (R155, R157) and Replay Events (R156), and the frames of
events and notices (R191). -/

namespace Sys2Proof.Machine

/-! ## Frames -/

/-- The code of an event and its fields, as its frame carries them after the seq (R149, R191). -/
def Event.bytes : Event → List Byte
  | .trackStarted t p start late => u8 0x01 ++ u8 t.val ++ u8 p.val ++ le48 start ++ flagByte [late]
  | .pageRetired t p stamp outcome n => u8 0x02 ++ u8 t.val ++ u8 p.val ++ le48 stamp ++ u8 outcome.code ++ u32 n
  | .trackHeld t stamp => u8 0x03 ++ u8 t.val ++ le48 stamp
  | .trackStopped t stamp reason => u8 0x04 ++ u8 t.val ++ le48 stamp ++ u8 reason.code
  | .trackUnderrun t policy stamp => u8 0x05 ++ u8 t.val ++ u8 policy.code ++ le48 stamp
  | .trackFault t reason stamp => u8 0x06 ++ u8 t.val ++ u8 reason.code ++ le48 stamp
  | .startCancelled t reason => u8 0x07 ++ u8 t.val ++ u8 reason.code
  | .mark t p index code stamp => u8 0x08 ++ u8 t.val ++ u8 p.val ++ u8 index ++ le16 code ++ le48 stamp
  | .gateReleased t k outcome stall => u8 0x09 ++ u8 t.val ++ u8 k.val ++ u8 outcome.code ++ le48 stall
  | .triggerFired k l stamp released => u8 0x0A ++ u8 k.val ++ u8 l.val ++ le48 stamp ++ u8 released
  | .triggerOverrun k stamp => u8 0x0B ++ u8 k.val ++ le48 stamp
  | .referenceStatus status epoch stamp => u8 0x0C ++ u8 status.code ++ le32 epoch ++ le48 stamp
  | .journalNotice held => u8 0x0D ++ u16 held
  | .linkFault t => u8 0x0E ++ u16 t.crc ++ u16 t.length ++ u16 t.timeout ++ u16 t.overrun
  | .eventsLost count => u8 0x0F ++ u16 count

/-- The Event frame of an entry: kind E0h, tag 0, its seq, its code and its fields (R153, R191). -/
def Entry.frame (e : Entry) : Frame := ⟨0xE0, 0, le16 e.seq ++ e.event.bytes⟩

/-- The part code and the silicon revision (R183, R185). -/
def partCode : List Byte := le16 0x0816 ++ u8 0x01

/-- The frame of a notice: Hello, kind F0h, or Session Ended, kind F1h with the reason LINK_LOST; both with tag 0 (R181,
R185, R191). -/
def Notice.frame : Notice → Frame
  | .hello cause rate stamp => ⟨0xF0, 0, partCode ++ u8 cause.code ++ u8 rate.toNat ++ le48 stamp⟩
  | .sessionEnded session stamp => ⟨0xF1, 0, u8 1 ++ le16 session ++ le48 stamp⟩

/-- The frame of a reply (R169, R188). -/
def Reply.frame (r : Reply) : Frame := ⟨r.kind, r.tag, r.payload⟩

/-! ## Placing a number against the queue (R152) -/

/-- Where a sequence number stands against the queue (R152). -/
inductive Place where
  | held (position : Nat)
  | behind
  | beyond
  deriving DecidableEq, Repr

/-- The reference for placing numbers: the seq of the oldest held entry, or the counter when none is held (R152, R155). -/
def EventUnit.oldest (u : EventUnit) : Word16 :=
  match u.queue with
  | [] => u.next
  | e :: _ => e.seq

/-- A number placed against the queue by its distance from the reference, modulo 65536 (R152). -/
def EventUnit.place (u : EventUnit) (s : Word16) : Place :=
  if (s - u.oldest).toNat < u.queue.length then .held (s - u.oldest).toNat
  else if 1 ≤ (u.oldest - s).toNat ∧ (u.oldest - s).toNat ≤ 32768 then .behind
  else .beyond

/-! ## Ack Events -/

/-- Whether the link unit queues a new Link Fault after entries have been removed: a tally is not 0, and a Link Fault entry
was removed, or the Events Lost entry while no Link Fault entry is held (R157). -/
def State.faultsToReport (s : State) (removed : List Entry) : Bool :=
  decide (s.link.tallies ≠ Tallies.zero) &&
    (removed.any Entry.isLinkFault || (removed.any Entry.isLost && !s.events.queue.any Entry.isLinkFault))

/-- The n oldest entries are removed, and the link tallies act on it (R155, R157). -/
def State.removeEvents (s : State) (n : Nat) : State :=
  let s' := { s with events := { s.events with queue := s.events.queue.drop n } }
  if s'.faultsToReport (s.events.queue.take n) then s'.reportLinkFault else s'

/-- The fields of an Ack Events reply: removed, held, oldest seq or counter (R155; log entry 17). -/
def State.ackFields (s : State) (removed : Nat) : List Byte :=
  u8 removed ++ u8 s.events.queue.length ++ le16 s.events.oldest

/-- Ack Events (R155). -/
def answerAckEvents (seq : Word16) (s : State) : State × Answer :=
  match s.events.place seq with
  | .held n =>
    if (s.events.queue[n]?.map Entry.sent).getD false then
      let s' := s.removeEvents (n + 1)
      (s', .say .ok (s'.ackFields (n + 1)))
    else (s, .say .badValue (s.ackFields 0))
  | .beyond => (s, .say .badValue (s.ackFields 0))
  | .behind => (s, .say .ok (s.ackFields 0))

/-! ## Replay Events -/

/-- Replay Events (R156). -/
def answerReplayEvents (seq : Word16) (s : State) : State × Answer :=
  match s.events.place seq with
  | .held n =>
    ({ s with events := { s.events with
        queue := s.events.queue.take n ++ (s.events.queue.drop n).map fun e => { e with sent := false } } },
      .say .ok (u8 (s.events.queue.length - n)))
  | .behind | .beyond => (s, .say .notFound (zeros 1))

end Sys2Proof.Machine
end

