-- ==== Sys2Proof/Machine/Sessions.lean ====
section
/-! DEFINITION. The session unit: session end (R25, R82, R97, R146, R159, R173, R180), Open Session (R178), Close Session
(R179), the keepalive (R181), Ping (R182), Identify (R183); reset and start-up (R184, R185). -/

namespace Sys2Proof.Machine

/-! ## Session end (R180) -/

/-- The session end's effect on a track: nothing if it is DISABLED, otherwise an abort and a flush (R82). -/
def State.endTrack (s : State) (t : TrackId) : State :=
  match s.tracks[t].state with
  | .disabled => s
  | .idle | .armed _ | .playing _ | .stalled _ _ | .holding _ | .faulted => (s.abortTrack t).flush t

/-- A deferred reply of an ended session is never stored (R172). -/
def Outgoing.ofEndedSession : Outgoing → Outgoing
  | .immediate r => .immediate r
  | .deferred r _ => .deferred r false

/-- The deferred requests at a session end by Close Session or Open Session: those not yet composed are answered ABORTED, in
a free order, and every held reply waits for the arbiter (R173; log entry 6). -/
def State.answerDeferred (s : State) : State :=
  let owners := freeOrder Config.abortOrder s.choices (s.link.awaiting.map Deferred.owner)
  let s' := owners.foldl State.composeAborted { s with choices := s.choices + 1 }
  { s' with link := { s'.link with replies := s'.link.replies.map Outgoing.ofEndedSession } }

/-- The deferred requests at a keepalive expiry: each, composed or not, is discarded without a reply (R173). -/
def State.discardDeferred (s : State) : State :=
  { s with link := { s.link with awaiting := [], replies := s.link.replies.filter Outgoing.isImmediate } }

/-- What a session end does whatever its cause: the state is CLOSED and the silence timer stopped first, so that no event of
the end is kept (R159, R180; log entry 16); then every track is aborted and flushed (R82), every page FREE (R25), every
trigger DISARMED with its configuration (R97), the event queue and the reply cache empty (R159, R171), no read waits (R146). -/
def State.endSession (s : State) : State :=
  let s := { s with session := { s.session with status := .closed, silence := none } }
  let s := allTracks.foldl State.endTrack s
  { s with
    pages := Vector.replicate 64 Page.cleared
    triggers := s.triggers.map fun k => { k with latch := .disarmed }
    events := { s.events with queue := [] }
    journal := { s.journal with waiting := none }
    link := { s.link with cache := [] } }

/-! ## Open Session, Close Session and the keepalive -/

/-- The session number after the next session open: the successor of 65535 is 1 (R177). -/
def nextSession (n : Word16) : Word16 := if n = 0xFFFF then 1 else n + 1

/-- The silence timer at its start: the keepalive timeout in base clock periods, or stopped for a timeout of 0 (R178, R181). -/
def silenceOf (keepalive : Word16) : Option Nat :=
  if keepalive = 0 then none else some (keepalive.toNat * Config.periodsPerMs)

/-- Steps 2 to 4 of an accepted Open Session (R178). -/
def State.openSession (s : State) (keepalive : Word16) : State :=
  { s with
    session := ⟨.opened, nextSession s.session.number, keepalive, silenceOf keepalive⟩
    events := { s.events with next := 1 }
    link := { s.link with tallies := Tallies.zero }
    journal := { s.journal with notice := false } }

/-- Whether a keepalive timeout is 0 or from 10 to 10000 ms (R178). -/
def isKeepalive (keepalive : Word16) : Bool :=
  keepalive == 0 || decide (10 ≤ keepalive.toNat ∧ keepalive.toNat ≤ 10000)

/-- Open Session (R178, R188). -/
def answerOpenSession (keepalive : Word16) (s : State) : State × Answer :=
  if !isKeepalive keepalive then (s, .say .badValue (zeros 25))
  else
    let s' := (if s.isOpen then s.endSession.answerDeferred else s).openSession keepalive
    (s', .say .ok
      (le16 s'.session.number ++ flagByte [s.isOpen] ++ le16 s'.session.keepalive ++ le48 s'.timeline ++ capacities))

/-- Close Session (R179, R188). The dispatcher admits it in OPEN alone. -/
def answerCloseSession (s : State) : State × Answer :=
  (s.endSession.answerDeferred, .say .ok (le16 s.session.number ++ le48 s.timeline))

/-- The silence timer expires: the session ends, deferred requests are discarded, Session Ended is produced (R181). -/
def State.loseLink (s : State) : State :=
  let s' := s.endSession.discardDeferred
  { s' with link := { s'.link with notices := s'.link.notices ++ [.sessionEnded s.session.number s.timeline] } }

/-- A good frame restarts the silence timer while the state is OPEN and the keepalive timeout is not 0 (R164, R181). -/
def State.restartSilence (s : State) : State :=
  if s.isOpen then { s with session := { s.session with silence := silenceOf s.session.keepalive } } else s

/-! ## Requests admitted without a session -/

/-- Ping (R182): the first 239 bytes are echoed. -/
def answerPing (payload : List Byte) (s : State) : State × Answer := (s, .say .ok (payload.take 239))

/-- Identify (R183, R188). -/
def answerIdentify (s : State) : State × Answer :=
  (s, .say .ok
    (partCode ++ capacities ++ u8 s.linkRate.toNat ++ u8 s.cause.code ++ u8 s.session.status.code ++
      le16 s.session.number ++ le16 s.session.keepalive ++ le48 s.timeline))

/-- Reset Part (R184): it replies OK, and the dispatcher takes no further frame (R167). -/
def answerResetPart (s : State) : State × Answer := ({ s with resetPart := .executed }, .say .ok [])

/-! ## Reset and start-up -/

/-- A reset begins: every block takes its reset values (R184). What stands outside the blocks is kept: the levels on the pins
and straps, the rate until the straps are sampled, the waiting commands (log entry 19). -/
def State.beginReset (s : State) (cause : ResetCause) : State :=
  { State.reset with
    phase := .reset
    cause := cause
    straps := s.straps
    linkRate := s.linkRate
    pinLevels := s.pinLevels
    choices := s.choices
    pending := s.pending }

/-- A reset ends: the straps are sampled, the timeline starts from 0 and the start-up interval begins (R160, R184, R185). -/
def State.endReset (s : State) (straps : BitVec 2) : State :=
  { s with straps := straps, linkRate := straps, timeline := 0, prescale := 0, phase := .startUp Config.startUpPeriods }

/-- The start-up interval ends: the part is at work and produces Hello (R185). -/
def State.endStartUp (s : State) : State :=
  { s with
    phase := .running
    link := { s.link with notices := s.link.notices ++ [.hello s.cause s.linkRate s.timeline] } }

end Sys2Proof.Machine
end

