-- ==== Sys2Proof/Machine/Timeline.lean ====
section
/-! DEFINITION. The timebase and the reference unit: Read Time (R109), Set Tick (R110), Set Reference (R115), Read Reference
(R116), a reference pulse (R112, R113) and the loss of lock (R114). -/

namespace Sys2Proof.Machine

/-- Read Time (R109, R188). -/
def answerReadTime (s : State) : State × Answer :=
  (s, .say .ok (le48 s.timeline ++ u8 s.divider ++ le32 s.reference.epoch ++ u8 s.reference.status.code))

/-- The checking of pulses restarts with a status: no base, no measured interval, good count 0 (R110, R115). -/
def Reference.restart (r : Reference) (status : RefStatus) : Reference :=
  { r with status := status, base := none, good := 0, measured := none }

/-- Whether Set Tick's second check passes: every track is DISABLED or IDLE (R110). -/
def State.tracksQuiet (s : State) : Bool :=
  allTracks.all fun t => match s.tracks[t].state with
    | .disabled | .idle => true
    | .armed _ | .playing _ | .stalled _ _ | .holding _ | .faulted => false

/-- Whether every trigger is DISARMED (R110 check 3). -/
def State.triggersQuiet (s : State) : Bool := allTriggers.all fun k => s.triggers[k].latch == .disarmed

/-- The effect of an accepted Set Tick with a divider that differs: the timeline keeps its value and counts from this tick at
the new rate, and checking restarts unless the status is FREE (R110). Within a tick of more than one base clock period the new
count begins at the period in which the request is executed, which is the model's choice (log entry 33). -/
def State.changeDivider (s : State) (divider : Nat) : State :=
  { s with
    divider := divider
    prescale := 0
    reference := if s.reference.status = .free then s.reference else s.reference.restart .seeking }

/-- Set Tick (R110, R188). -/
def answerSetTick (divider : Byte) (s : State) : State × Answer :=
  if !isDivider divider.toNat then (s, .say .badValue (zeros 8))
  else if !s.tracksQuiet then (s, .say .busy (zeros 8))
  else if !s.triggersQuiet then (s, .say .busy (zeros 8))
  else if !s.journal.records.isEmpty then (s, .say .busy (zeros 8))
  else
    let s' := if divider.toNat = s.divider then s else s.changeDivider divider.toNat
    (s', .say .ok (u8 s'.divider ++ le48 s'.timeline ++ u8 s'.reference.status.code))

/-- The number of tracks ARMED in form ON_EPOCH (R116). -/
def State.epochArmed (s : State) : Nat := allTracks.countP fun t => s.tracks[t].onEpoch

/-- The ranges of Set Reference's arguments (R115 check 1). -/
def referenceArguments (interval : Word32) (window : Word16) : Bool :=
  if interval = 0 then window == 0 else decide (1000 ≤ interval.toNat ∧ window.toNat < interval.toNat)

/-- Set Reference (R115, R188). -/
def answerSetReference (interval : Word32) (window : Word16) (s : State) : State × Answer :=
  if !referenceArguments interval window then (s, .say .badValue (zeros 8))
  else if s.epochArmed ≠ 0 then (s, .say .busy (zeros 8))
  else
    let r := { s.reference.restart (if interval = 0 then .free else .seeking) with interval := interval, window := window }
    ({ s with reference := r },
      .say .ok (u8 s.reference.status.code ++ u8 r.status.code ++ le48 s.timeline))

/-- The missing-pulse expiry: base plus I plus W, while the base is present (R113, R114). -/
def Reference.expiry (r : Reference) : Option Stamp :=
  r.base.map fun b => b + ticks r.interval + r.window.setWidth 48

/-- Read Reference (R116, R188). -/
def answerReadReference (s : State) : State × Answer :=
  let r := s.reference
  (s, .say .ok
    (le48 s.timeline ++ u8 r.status.code ++ le32 r.interval ++ le16 r.window ++ le32 r.epoch ++
      le48 (r.lastPulse.getD 0) ++ u8 r.good ++ le48 (r.base.getD 0) ++ le48 (r.measured.getD 0) ++
      le48 (r.expiry.getD 0) ++ u8 s.epochArmed ++
      flagByte [r.lastPulse.isSome, r.base.isSome, r.measured.isSome, r.expiry.isSome]))

/-- A loss of lock at this tick: SEEKING, Reference Status queued, then every epoch start cancelled in track number order
(R114). -/
def State.lossOfLock (s : State) : State :=
  let s1 := ({ s with reference := { s.reference with status := .seeking } }).queueEvent
    (.referenceStatus .seeking s.reference.epoch s.timeline)
  (allTracks.filter fun t => s.tracks[t].onEpoch).foldl (fun s t => s.cancelStart t .reference) s1

/-- Whether a measured interval lies within the window (R113). -/
def Reference.inWindow (r : Reference) (d : Stamp) : Bool :=
  decide (r.interval.toNat - r.window.toNat ≤ d.toNat ∧ d.toNat ≤ r.interval.toNat + r.window.toNat)

/-- A pulse at this tick is checked against the base, the interval and the window (R113). The window lies below the interval
(R111), so I less W is not below 0. -/
def State.checkPulse (s : State) : State :=
  let r := s.reference
  match r.base with
  | none => { s with reference := { r with base := some s.timeline } }
  | some b =>
    let d := s.timeline - b
    let r' := { r with base := some s.timeline, measured := some d }
    if r.inWindow d then
      let good := min (r.good + 1) 255
      if r.status = .seeking ∧ good = 2 then
        ({ s with reference := { r' with good := good, status := .locked } }).queueEvent
          (.referenceStatus .locked r.epoch s.timeline)
      else { s with reference := { r' with good := good } }
    else
      let s' := { s with reference := { r' with good := 0 } }
      if r.status = .locked then s'.lossOfLock else s'

/-- A track ARMED on the epoch that a pulse with stamp p brings is released (R68). -/
def TrackState.onPulse (st : TrackState) (epoch : Word32) (p : Stamp) : TrackState :=
  match st with
  | .armed ⟨.onEpoch n offset, reply⟩ => if n = epoch then .armed ⟨releasedStart p p offset, reply⟩ else st
  | other => other

/-- Every track armed on the present epoch is released with this tick as the pulse stamp (R112 step 3). -/
def State.releaseEpoch (s : State) : State :=
  { s with tracks := s.tracks.map fun tr => { tr with state := tr.state.onPulse s.reference.epoch s.timeline } }

/-- A rising edge on REFIN: the epoch counter rises and the stamp is kept, the pulse is checked unless the status is FREE, the
tracks awaiting the new epoch are released (R112). -/
def State.pulse (s : State) : State :=
  let s1 := { s with reference := { s.reference with epoch := s.reference.epoch + 1, lastPulse := some s.timeline } }
  (if s.reference.status = .free then s1 else s1.checkPulse).releaseEpoch

/-- The missing-pulse timer expires: good count 0, no base; a loss of lock if LOCKED (R114). -/
def State.missPulse (s : State) : State :=
  let s' := { s with reference := { s.reference with good := 0, base := none } }
  if s.reference.status = .locked then s'.lossOfLock else s'

end Sys2Proof.Machine
end

