-- ==== Sys2Proof/Machine/Tracks.lean ====
section
/-! DEFINITION. The track units' answers to their requests: Configure Track (R50 to R56), Queue Page (R57, R58), Flush Queue
(R78), Start Track in its four modes (R61 to R66), Stop Track (R71 to R74), Hold Track (R75), Release Track (R76), Read Track
(R80). -/

namespace Sys2Proof.Machine

/-- The state code of the track a byte names, 0 where it names none. -/
def State.stateCode (s : State) (track : Byte) : List Byte :=
  u8 (((idBelow 8 track).map fun t => s.tracks[t].state.code).getD 0)

/-! ## Configure Track -/

/-- The fields of a Configure Track reply (R56, R188): track, state, the flag of a pending configuration. -/
def State.configureFields (s : State) (track : Byte) (taken : Bool) : List Byte :=
  [track] ++ s.stateCode track ++ flagByte [taken]

/-- Whether every line of a set is in role OUTPUT (R50 check 4). -/
def State.allOutputs (s : State) (group : LineSet) : Bool :=
  allLines.all fun l => !group.getLsbD l || match s.lines[l].role with
    | .output _ => true
    | .unused | .input _ _ _ _ => false

/-- Whether no line of a set is in the group of another track than t (R50 check 4). -/
def State.disjointFromOthers (s : State) (t : TrackId) (group : LineSet) : Bool :=
  allTracks.all fun t' => t' == t || s.tracks[t'].group &&& group == 0

/-- Whether a set of lines lies within another. -/
def within (a b : LineSet) : Bool := a &&& ~~~b == 0

/-- Whether a track's state fixes its lines, so that a change of group or a disable is refused BUSY (R50 check 3). -/
def TrackState.fixesGroup : TrackState → Bool
  | .armed _ | .playing _ | .stalled _ _ | .holding _ => true
  | .disabled | .idle | .faulted => false

/-- A track enabled or reconfigured with what a request gives: policy and report options stored (R51 to R53). -/
def Track.configured (tr : Track) (group : LineSet) (policy : Policy) (started retired : Bool) : Track :=
  { tr with group := group, policy := policy, reportStarted := started, reportRetired := retired }

/-- The effect of an accepted Configure Track with enable set, by the track's state (R51 to R54). -/
def State.enableTrack (s : State) (t : TrackId) (group rest : LineSet) (policy : Policy) (started retired : Bool) :
    State :=
  match s.tracks[t].state with
  | .disabled =>
    ((s.modifyTrack t fun tr => { tr.configured group policy started retired with state := .idle }).storeRest group
      rest).restLines group
  | .idle | .faulted =>
    (((s.restLines (s.tracks[t].group &&& ~~~group)).modifyTrack t fun tr =>
      tr.configured group policy started retired).storeRest group rest).restLines group
  | .armed _ =>
    ((s.modifyTrack t fun tr => tr.configured group policy started retired).storeRest group rest).restLines group
  | .holding _ => (s.modifyTrack t fun tr => tr.configured group policy started retired).storeRest group rest
  | .playing _ | .stalled _ _ =>
    s.modifyTrack t fun tr => { tr with pendingConfig := some ⟨policy, rest, started, retired⟩ }

/-- Whether a track's state takes a Configure Track as its pending configuration (R54). -/
def TrackState.takesPending : TrackState → Bool
  | .playing _ | .stalled _ _ => true
  | .disabled | .idle | .armed _ | .holding _ | .faulted => false

/-- The effect of an accepted Configure Track with enable clear: the track is DISABLED, its lines stay static outputs at
their rest levels, policy and report options are kept (R51, R52). -/
def State.disableTrack (s : State) (t : TrackId) : State :=
  (s.applyRest t).modifyTrack t fun tr => { tr with state := .disabled, group := 0 }

/-- Configure Track (R50 to R56). -/
def answerConfigureTrack (track enable policy options : Byte) (group rest : LineSet) (s : State) : State × Answer :=
  match idBelow 8 track with
  | none => (s, .say .badValue (s.configureFields track false))
  | some t =>
    let tr := s.tracks[t]
    if enable = 0 then
      if tr.state.fixesGroup || !tr.queue.isEmpty then (s, .say .busy (s.configureFields track false))
      else
        let s' := s.disableTrack t
        (s', .say .ok (s'.configureFields track false))
    else
      match Policy.ofByte policy with
      | none => (s, .say .badValue (s.configureFields track false))
      | some pol =>
        if group = 0 ∨ !onlyFlags 2 options ∨ !within rest group then
          (s, .say .badValue (s.configureFields track false))
        else if tr.state.fixesGroup ∧ group ≠ tr.group then (s, .say .busy (s.configureFields track false))
        else if !(s.allOutputs group && s.disjointFromOthers t group &&
            tr.queue.all fun p => within s.pages[p].footprint group) then
          (s, .say .footprint (s.configureFields track false))
        else
          let s' := s.enableTrack t group rest pol (flag options 0) (flag options 1)
          (s', .say .ok (s'.configureFields track tr.state.takesPending))

/-! ## Queue Page and Flush Queue -/

/-- The fields of a Queue Page reply (R58, R188): track, page, queue length, state. -/
def State.queueFields (s : State) (page track : Byte) : List Byte :=
  [track, page] ++ u8 (((idBelow 8 track).map fun t => s.tracks[t].queue.length).getD 0) ++ s.stateCode track

/-- Whether a track admits Queue Page: neither DISABLED nor FAULTED (R57 check 3). -/
def TrackState.takesPages : TrackState → Bool
  | .disabled | .faulted => false
  | .idle | .armed _ | .playing _ | .stalled _ _ | .holding _ => true

/-- Queue Page (R57, R58). -/
def answerQueuePage (page track : Byte) (s : State) : State × Answer :=
  match idBelow 64 page, idBelow 8 track with
  | none, _ => (s, .say .badValue (s.queueFields page track))
  | some _, none => (s, .say .badValue (s.queueFields page track))
  | some p, some t =>
    if !s.tracks[t].state.takesPages then (s, .say .busy (s.queueFields page track))
    else
      match s.pages[p].state with
      | .free => (s, .say .notFound (s.queueFields page track))
      | .opened | .queued | .active => (s, .say .busy (s.queueFields page track))
      | .sealed =>
        if Config.queueDepth ≤ s.tracks[t].queue.length then (s, .say .noSpace (s.queueFields page track))
        else if !within s.pages[p].footprint s.tracks[t].group then (s, .say .footprint (s.queueFields page track))
        else
          let s' := (s.modifyPage p fun pg => { pg with state := .queued, owner := some t }).modifyTrack t fun tr =>
            { tr with queue := tr.queue ++ [p] }
          (s', .say .ok (s'.queueFields page track))

/-- The release start of a HOLDING track is removed (R77). -/
def TrackState.withoutRelease : TrackState → TrackState
  | .holding _ => .holding none
  | other => other

/-- What a flush does to the track beyond emptying its queue: an armed start is cancelled FLUSHED, a release start is removed
with Start Cancelled (R77, R78). -/
def State.afterFlush (s : State) (t : TrackId) : State :=
  match s.tracks[t].state with
  | .armed _ => s.cancelStart t .flushed
  | .holding (some _) => (s.setTrackState t (.holding none)).queueEvent (.startCancelled t .flushed)
  | .disabled | .idle | .playing _ | .stalled _ _ | .holding none | .faulted => s

/-- Flush Queue (R78). -/
def answerFlushQueue (track : Byte) (s : State) : State × Answer :=
  match idBelow 8 track with
  | none => (s, .say .badValue (zeros 3))
  | some t =>
    let s' := (s.flush t).afterFlush t
    (s', .say .ok ([track] ++ u8 s.tracks[t].queue.length ++ s'.stateCode track))

/-! ## Start Track -/

/-- The fields of an immediate OK of Start Track (R62, R188): track, the state ARMED, the form, LATE, page 0, the start time,
trigger or epoch that the form gives. -/
def armedFields (t : TrackId) (form : StartForm) : List Byte :=
  u8 t.val ++ u8 2 ++ u8 form.code ++
    match form with
    | .timed start late => flagByte [late] ++ u8 0 ++ le48 start ++ u8 0 ++ u32 0
    | .onTrigger k _ => u8 0 ++ u8 0 ++ zeros 6 ++ u8 k.val ++ u32 0
    | .onEpoch n _ => u8 0 ++ u8 0 ++ zeros 6 ++ u8 0 ++ le32 n

/-- The fields of a refused Start Track (R62): track and state. -/
def State.startRefusal (s : State) (track : Byte) : List Byte := [track] ++ s.stateCode track ++ zeros 14

/-- Start Track after its field checks: the track is IDLE (BUSY), its queue holds a page (EMPTY), the mode's own check gives
the armed start's form or a refusal, a deferred slot is free where one is needed (WINDOW_FULL). `effect` is what the mode does
beside arming the track (R62). An earlier start's reply, composed and not yet taken, does not refuse this one (log entry 31). -/
def startTrack (track options : Byte) (form : Except Status StartForm) (effect : State → State) (s : State) :
    State × Answer :=
  match idBelow 8 track with
  | none => (s, .say .badValue (s.startRefusal track))
  | some t =>
    match s.tracks[t].state with
    | .idle =>
      if s.tracks[t].queue.isEmpty then (s, .say .empty (s.startRefusal track))
      else
        match form with
        | .error status => (s, .say status (s.startRefusal track))
        | .ok form =>
          if flag options 0 && !s.slotFree then (s, .say .windowFull (s.startRefusal track))
          else
            let s' := (effect s).setTrackState t (.armed ⟨form, flag options 0⟩)
            (s', if flag options 0 then .deferred (.start t) else .say .ok (armedFields t form))
    | .disabled | .armed _ | .playing _ | .stalled _ _ | .holding _ | .faulted =>
      (s, .say .busy (s.startRefusal track))

/-- Start Track refused BAD_VALUE: a reserved byte that is not 0 (R168 step 6) or a field out of its range (R62 check 1). -/
def startBadValue (track : Byte) (s : State) : State × Answer := (s, .say .badValue (s.startRefusal track))

/-- Start Track in mode AT: t at least the lead ahead of now (R63). The trigger and offset bytes are unused. -/
def answerStartAt (track options trigger : Byte) (time : Stamp) (offset : Word32) (s : State) : State × Answer :=
  if trigger ≠ 0 ∨ offset ≠ 0 ∨ !onlyFlags 1 options then startBadValue track s
  else
    startTrack track options
      (if aheadBy Config.lead time s.timeline then .ok (.timed time false) else .error .tooLate) id s

/-- Start Track in mode AFTER: the delay is bytes 0 to 3 of the time field, at least 64; the other bytes are unused (R62,
R63, R187). -/
def answerStartAfter (track options trigger : Byte) (time : Stamp) (offset : Word32) (s : State) : State × Answer :=
  if trigger ≠ 0 ∨ offset ≠ 0 ∨ time.extractLsb' 32 16 ≠ 0 ∨ !onlyFlags 1 options ∨
      (time.extractLsb' 0 32).toNat < Config.lead then startBadValue track s
  else startTrack track options (.ok (.timed (s.timeline + ticks (time.extractLsb' 0 32)) false)) id s

/-- The armed start that mode ON_TRIGGER sets, by the latch of the trigger (R64). -/
def State.triggerStart (s : State) (k : TriggerId) (offset : Word32) : Except Status StartForm :=
  match s.triggers[k].latch with
  | .disarmed => .error .busy
  | .armed | .blocked => .ok (.onTrigger k offset)
  | .fired f _ _ =>
    if aheadBy Config.lead (f + ticks offset) s.timeline then .ok (.timed (f + ticks offset) false)
    else .error .tooLate

/-- A FIRED latch is consumed; any other is left (R64). -/
def State.takeFiring (k : TriggerId) (s : State) : State :=
  match s.triggers[k].latch with
  | .fired _ _ _ => s.consume k
  | .disarmed | .armed | .blocked => s

/-- Start Track in mode ON_TRIGGER (R64). The time field is unused. -/
def answerStartOnTrigger (track options trigger : Byte) (time : Stamp) (offset : Word32) (s : State) : State × Answer :=
  match idBelow 4 trigger with
  | none => startBadValue track s
  | some k =>
    if time ≠ 0 ∨ !onlyFlags 1 options then startBadValue track s
    else startTrack track options (s.triggerStart k offset) (State.takeFiring k) s

/-- The armed start that mode AT_EPOCH sets (R65). -/
def State.epochStart (s : State) (n offset : Word32) : Except Status StartForm :=
  if n.toNat ≤ s.reference.epoch.toNat then .error .tooLate
  else if s.reference.status = .seeking then .error .busy
  else .ok (.onEpoch n offset)

/-- Start Track in mode AT_EPOCH: n is bytes 0 to 3 of the time field; bytes 4 and 5 and the trigger are unused (R65, R187). -/
def answerStartAtEpoch (track options trigger : Byte) (time : Stamp) (offset : Word32) (s : State) : State × Answer :=
  if trigger ≠ 0 ∨ time.extractLsb' 32 16 ≠ 0 ∨ !onlyFlags 1 options then startBadValue track s
  else startTrack track options (s.epochStart (time.extractLsb' 0 32) offset) id s

/-! ## Stop Track -/

/-- Stop Track ABORT on an ARMED, PLAYING, STALLED, HOLDING or FAULTED track: steps 1 to 7 of R71. -/
def State.stopAbort (s : State) (t : TrackId) : State :=
  (((s.abortTrack t).composeAborted (.stopEnd t)).composeAborted (.start t)).queueEvent
    (.trackStopped t s.timeline .abort)

/-- The OK of a Stop Track that R71 or R74 answers with the track's state alone. -/
def State.stopReply (s : State) (t : TrackId) : Answer := .say .ok (stopFields 0 s.tracks[t].state.code 0)

/-- Stop Track ABORT (R71): step 8 gives the track and the state IDLE, an IDLE or DISABLED track its state alone. -/
def answerStopAbort (track : Byte) (s : State) : State × Answer :=
  match idBelow 8 track with
  | none => (s, .say .badValue (zeros 8))
  | some t =>
    match s.tracks[t].state with
    | .disabled | .idle => (s, s.stopReply t)
    | .armed _ | .playing _ | .stalled _ _ | .holding _ | .faulted =>
      (s.stopAbort t, .say .ok (stopFields t.val (s.stopAbort t).tracks[t].state.code 0))

/-- A HOLDING or FAULTED track goes to IDLE at rest with Track Stopped, reason END (R74). -/
def State.stopAtOnce (s : State) (t : TrackId) : State :=
  ((s.settle t .idle).applyRest t).queueEvent (.trackStopped t s.timeline .atEnd)

/-- Stop Track END: a deferred stop request on a PLAYING or STALLED track (R72); at once on any other (R74). The stop request
alone refuses a second one: a reply composed and not yet taken does not, which is the model's choice (log entry 31). -/
def answerStopEnd (track : Byte) (s : State) : State × Answer :=
  match idBelow 8 track with
  | none => (s, .say .badValue (zeros 8))
  | some t =>
    match s.tracks[t].state with
    | .playing _ | .stalled _ _ =>
      if s.tracks[t].stopRequest then (s, .say .busy (zeros 8))
      else if !s.slotFree then (s, .say .windowFull (zeros 8))
      else (s.modifyTrack t fun tr => { tr with stopRequest := true }, .deferred (.stopEnd t))
    | .armed _ => (s.cancelStart t .stopped, (s.cancelStart t .stopped).stopReply t)
    | .holding _ | .faulted => (s.stopAtOnce t, (s.stopAtOnce t).stopReply t)
    | .disabled | .idle => (s, s.stopReply t)

/-! ## Hold Track and Release Track -/

/-- Hold Track (R75): an OK gives the track's state alone (R188). That the OK in HOLDING, of which R75 says only that it
changes nothing, gives the state too is the model's choice (log entry 12). -/
def answerHoldTrack (track : Byte) (s : State) : State × Answer :=
  match idBelow 8 track with
  | none => (s, .say .badValue (zeros 2))
  | some t =>
    let fields := u8 0 ++ u8 s.tracks[t].state.code
    match s.tracks[t].state with
    | .armed _ | .playing _ | .stalled _ _ =>
      if s.tracks[t].stopRequest then (s, .say .busy (zeros 2))
      else (s.modifyTrack t fun tr => { tr with hold := true }, .say .ok fields)
    | .holding _ => (s, .say .ok fields)
    | .idle | .disabled | .faulted => (s, .say .busy (zeros 2))

/-- Release Track (R76): an OK gives the track's state, and the release start time in HOLDING (R188). -/
def answerReleaseTrack (track : Byte) (s : State) : State × Answer :=
  match idBelow 8 track with
  | none => (s, .say .badValue (zeros 8))
  | some t =>
    let fields := u8 0 ++ u8 s.tracks[t].state.code
    match s.tracks[t].state with
    | .holding release =>
      if s.tracks[t].queue.isEmpty then (s, .say .empty (zeros 8))
      else
        match release with
        | some start => (s, .say .ok (fields ++ le48 start))
        | none =>
          let start := s.timeline + tickCount Config.lead
          (s.setTrackState t (.holding (some start)), .say .ok (fields ++ le48 start))
    | .armed _ | .playing _ | .stalled _ _ =>
      if s.tracks[t].hold then (s.modifyTrack t fun tr => { tr with hold := false }, .say .ok (fields ++ zeros 6))
      else (s, .say .busy (zeros 8))
    | .idle | .disabled | .faulted => (s, .say .busy (zeros 8))

/-! ## Read Track -/

/-- The page-time position of a PLAYING track at now: the time elapsed since the repetition start stamp less the stall
accumulated in the repetition (R33). -/
def State.pageTime (s : State) (p : Playback) : Word32 := (s.timeline - p.repStart - p.stall).setWidth 32

/-- The repetition index field: the index in 2 bytes; above 65535 a free value (log entry 13). -/
def repIndexField (n : Nat) : List Byte :=
  le16 (if n < 65536 then BitVec.ofNat 16 n else Config.wideRepetitionIndex n)

/-- The fields of a playback context in the Read Track reply, from the active page to the pending pulse ends; the position
is given (R80, R188). -/
def Playback.fields (p : Playback) (position : Word32) : List Byte :=
  u8 p.page.val ++ le48 p.runStart ++ repIndexField p.repIndex ++ u32 p.repsPlayed ++ le32 position ++ u8 p.nextStep ++
    le48 p.stall ++ u8 p.pulseEnds.length

/-- The fields of a track's state in the Read Track reply, from the active page on; fields not present are 0 (R80, R188). -/
def State.stateFields (s : State) (st : TrackState) : List Byte :=
  match st with
  | .playing p => p.fields (s.pageTime p) ++ zeros 2 ++ zeros 16
  | .stalled p g => p.fields g.offset ++ u8 g.trigger.val ++ u8 g.index ++ zeros 16
  | .armed ⟨form, _⟩ =>
    zeros 25 ++ zeros 2 ++ u8 form.code ++
      match form with
      | .timed start _ => le48 start ++ u8 0 ++ u32 0 ++ u32 0
      | .onTrigger k offset => zeros 6 ++ u8 k.val ++ u32 0 ++ le32 offset
      | .onEpoch n offset => zeros 6 ++ u8 0 ++ le32 n ++ le32 offset
  | .holding release => zeros 25 ++ zeros 2 ++ u8 0 ++ le48 (release.getD 0) ++ zeros 9
  | .disabled | .idle | .faulted => zeros 43

/-- The flags of the Read Track reply: hold, stop request END, looping, pending configuration, deferred start reply, LATE,
release start set (R188). -/
def Track.flags (tr : Track) : List Byte :=
  flagByte [tr.hold, tr.stopRequest, tr.looping, tr.pendingConfig.isSome,
    match tr.state with
    | .armed ⟨_, reply⟩ => reply
    | _ => false,
    match tr.state with
    | .armed ⟨.timed _ late, _⟩ => late
    | _ => false,
    match tr.state with
    | .holding release => release.isSome
    | _ => false]

/-- Read Track (R80, R188): 65 bytes after the status. -/
def answerReadTrack (track : Byte) (s : State) : State × Answer :=
  match idBelow 8 track with
  | none => (s, .say .badValue (zeros 65))
  | some t =>
    let tr := s.tracks[t]
    (s, .say .ok
      (u8 t.val ++ u8 tr.state.code ++ le48 s.timeline ++ le16 tr.group ++ u8 tr.policy.code ++
        flagByte [tr.reportStarted, tr.reportRetired] ++ u8 tr.queue.length ++
        (tr.queue.flatMap (fun p => u8 p.val) ++ zeros 8).take 8 ++ tr.flags ++ s.stateFields tr.state))

end Sys2Proof.Machine
end

