-- ==== Sys2Proof/Machine/Triggers.lean ====
section
/-! DEFINITION. The trigger units' answers to their requests: Arm Trigger (R87, R88), Disarm Trigger (R94, R103) and Read
Trigger (R95); and the discard of an aged firing (R90). -/

namespace Sys2Proof.Machine

/-- The fields of an Arm Trigger reply (R88, R188): trigger and latch state. -/
def State.armFields (s : State) (trigger : Byte) : List Byte :=
  [trigger] ++ u8 (((idBelow 4 trigger).map fun k => s.triggers[k].latch.code).getD 0)

/-- Whether a line is in role INPUT. -/
def Line.isInput (l : Line) : Bool :=
  match l.role with
  | .input _ _ _ _ => true
  | .unused | .output _ => false

/-- The effect of an accepted Arm Trigger: the configuration is taken, and the trigger is ARMED, or fires at once with stamp
and acceptance time now when a level sense finds the active level (R88). -/
def State.arm (s : State) (k : TriggerId) (c : TriggerConfig) : State :=
  if c.sense.activeLevel = some s.lines[c.line].sensedLevel then
    (s.modifyTrigger k fun _ => ⟨.fired s.timeline s.timeline false, some c⟩).queueEventIf c.report
      (.triggerFired k c.line s.timeline 0)
  else s.modifyTrigger k fun _ => ⟨.armed, some c⟩

/-- Arm Trigger (R87, R88). -/
def answerArmTrigger (trigger line sense count flags : Byte) (s : State) : State × Answer :=
  match idBelow 4 trigger, idBelow 16 line, Sense.ofByte sense with
  | some k, some l, some sn =>
    if !onlyFlags 1 flags then (s, .say .badValue (s.armFields trigger))
    else
      match s.triggers[k].latch with
      | .armed | .fired _ _ _ | .blocked => (s, .say .busy (s.armFields trigger))
      | .disarmed =>
        if !s.lines[l].isInput then (s, .say .busy (s.armFields trigger))
        else
          let s' := s.arm k ⟨l, sn, count ≠ 0, count.toNat, flag flags 0⟩
          (s', .say .ok (s'.armFields trigger))
  | _, _, _ => (s, .say .badValue (s.armFields trigger))

/-- A consumer of a trigger that is being disarmed: its start is cancelled DISARMED, or its gate ends as if its timeout had
expired at now (R94 step 2, R103). -/
def State.dismiss (s : State) (k : TriggerId) (t : TrackId) : State :=
  match s.tracks[t].waitsOn k with
  | some .start => s.cancelStart t .disarmed
  | some .gate => s.endGate t
  | none => s

/-- A trigger that is not DISARMED is disarmed: the latch first, then each consumer in track number order (R94). -/
def State.disarm (s : State) (k : TriggerId) : State :=
  (s.consumers k).foldl (fun s t => s.dismiss k t) (s.setLatch k .disarmed)

/-- The number of a trigger's consumers with a mark. -/
def State.marked (s : State) (k : TriggerId) (m : Mark) : Nat :=
  (s.consumers k).countP fun t => s.tracks[t].waitsOn k == some m

/-- Disarm Trigger (R94, R188). On a DISARMED trigger nothing changes, and that its OK then carries no field, as R94 names none,
is the model's choice (log entry 12). -/
def answerDisarmTrigger (trigger : Byte) (s : State) : State × Answer :=
  match idBelow 4 trigger with
  | none => (s, .say .badValue (zeros 3))
  | some k =>
    match s.triggers[k].latch with
    | .disarmed => (s, .say .ok (zeros 3))
    | .armed | .fired _ _ _ | .blocked =>
      (s.disarm k, .say .ok ([trigger] ++ u8 (s.marked k .start) ++ u8 (s.marked k .gate)))

/-- A set of tracks as a mask: bit t for Tt (R186). -/
def trackMask (ts : List TrackId) : List Byte := u8 ((ts.map fun t => 2 ^ t.val).sum)

/-- Read Trigger (R95, R188). -/
def answerReadTrigger (trigger : Byte) (s : State) : State × Answer :=
  match idBelow 4 trigger with
  | none => (s, .say .badValue (zeros 28))
  | some k =>
    let tr := s.triggers[k]
    let overrun := match tr.latch with
      | .fired _ _ o => o
      | .disarmed | .armed | .blocked => false
    let held := match tr.latch with
      | .fired f c _ => le48 f ++ le48 c
      | .disarmed | .armed | .blocked => zeros 12
    let config := match tr.config with
      | none => flagByte [false, false, false, overrun] ++ zeros 4
      | some c =>
        flagByte [true, !c.limited, c.report, overrun] ++ u8 c.line.val ++ u8 c.sense.code ++ u8 c.remaining ++
          levelByte s.lines[c.line].sensedLevel
    let gates := (s.consumers k).filter fun t => s.tracks[t].waitsOn k == some .gate
    (s, .say .ok
      ([trigger] ++ le48 s.timeline ++ u8 tr.latch.code ++ config ++ held ++ u8 (s.consumers k).length ++
        trackMask (s.consumers k) ++ trackMask gates))

/-- A held firing is discarded unconsumed; the count is kept and no event is queued (R90). -/
def State.discardFiring (s : State) (k : TriggerId) : State :=
  match s.triggers[k].latch, s.triggers[k].config with
  | .fired _ _ _, some c => s.setLatch k (s.latchAfterFiring c)
  | _, _ => s

end Sys2Proof.Machine
end

