-- ==== Sys2Proof/Machine/Link.lean ====
section
/-! DEFINITION. The link unit: the dispatcher (R167 to R172), the receive FIFO and the frame assembler (R161 to R166), a
request row of the table taken whole (log entry 1), and the transmit arbiter (R174). -/

namespace Sys2Proof.Machine

/-! ## The dispatcher -/

/-- The kinds admitted while no session is open: Identify, Open Session, Ping and Reset Part (R168 step 3). -/
def admittedClosed (kind : Byte) : Bool := kind == 0x01 || kind == 0x02 || kind == 0x04 || kind == 0x05

/-- A refusal that carries the status alone, of the request's reply kind (R169, R188). -/
def statusOnly (f : Frame) (status : Status) : Reply := ⟨f.kind + 0x80, f.tag, status, 0, []⟩

/-- Step 6 of R168: the owning block acts, and its answer is an immediate reply, stored and placed in the transmit buffer, or
a deferred request slot taken (R171, R172). -/
def State.execute (s : State) (f : Frame) (own : State → State × Answer) : State :=
  match own s with
  | (s', .reply status fields gates) =>
    (s'.cacheReply ⟨f.kind + 0x80, f.tag, status, gates, fields⟩).pushReply ⟨f.kind + 0x80, f.tag, status, gates, fields⟩
  | (s', .deferred owner) => s'.defer owner f.tag

/-- The dispatcher handles a good frame, in the order of R168. -/
def State.dispatch (s : State) (f : Frame) (own : State → State × Answer) : State :=
  if !isRequestKind f.kind then s.pushReply ⟨0xFF, f.tag, .badKind, 0, [f.kind]⟩
  else if !lengthFits f.kind f.payload.length then s.pushReply (statusOnly f .badLength)
  else if !s.isOpen && !admittedClosed f.kind then s.pushReply (statusOnly f .noSession)
  else if f.tag = 0 then s.execute f own
  else
    match s.cached f.tag with
    | some r => s.pushReply r
    | none => if s.inFlight f.tag then s.pushReply (statusOnly f .inProgress) else s.execute f own

/-- Whether the dispatcher takes a frame: the part is at work, no Reset Part has been executed, and the transmit buffer has a
free place (R167, R185). -/
def State.canTake (s : State) : Bool :=
  decide (s.phase = .running) && decide (s.resetPart = .none) && decide (s.buffered < Config.bufferReplies)

/-- Whether a frame that arrives whole reaches the dispatcher at once: the dispatcher may take it, and no byte received before
stands in the FIFO (R167). -/
def State.takesAtOnce (s : State) : Bool := s.canTake && s.link.fifo.isEmpty && decide (s.link.assembler = .hunt)

/-- What the owning block does with a request (R168 step 6); a command that is no request has no owner. -/
def ownerOf (i : Instr) : State → State × Answer :=
  match i with
  | .identify _ => answerIdentify
  | .openSession _ keepalive => answerOpenSession keepalive
  | .closeSession _ => answerCloseSession
  | .ping _ payload => answerPing payload
  | .resetPart _ => answerResetPart
  | .ackEvents _ seq => answerAckEvents seq
  | .replayEvents _ seq => answerReplayEvents seq
  | .readTime _ => answerReadTime
  | .setTick _ divider => answerSetTick divider
  | .setReference _ interval window => answerSetReference interval window
  | .readReference _ => answerReadReference
  | .configureLine _ line role rest filter capture => answerConfigureLine line role rest filter capture
  | .readLines _ => answerReadLines
  | .openPage _ period repeats flags reserved => answerOpenPage period repeats flags reserved
  | .appendSteps _ page reserved records => answerAppendSteps page reserved records
  | .sealPage _ page => answerSealPage page
  | .discardPage _ page => answerDiscardPage page
  | .readPage _ page first => answerReadPage page first
  | .readPool _ => answerReadPool
  | .configureTrack _ track enable policy options group rest =>
    answerConfigureTrack track enable policy options group rest
  | .queuePage _ page track => answerQueuePage page track
  | .flushQueue _ track => answerFlushQueue track
  | .startTrackAt _ track options trigger time offset => answerStartAt track options trigger time offset
  | .startTrackAfter _ track options trigger time offset => answerStartAfter track options trigger time offset
  | .startTrackOnTrigger _ track options trigger time offset => answerStartOnTrigger track options trigger time offset
  | .startTrackAtEpoch _ track options trigger time offset => answerStartAtEpoch track options trigger time offset
  | .stopTrackAbort _ track => answerStopAbort track
  | .stopTrackEnd _ track => answerStopEnd track
  | .holdTrack _ track => answerHoldTrack track
  | .releaseTrack _ track => answerReleaseTrack track
  | .readTrack _ track => answerReadTrack track
  | .armTrigger _ trigger line sense count flags => answerArmTrigger trigger line sense count flags
  | .disarmTrigger _ trigger => answerDisarmTrigger trigger
  | .readTrigger _ trigger => answerReadTrigger trigger
  | .readJournal _ ack maximum reserved wait => answerReadJournal ack maximum reserved wait
  | .setJournal _ watermark => answerSetJournal watermark
  | _ => fun s => (s, .say .badKind [])

/-- What the owning block does with a good frame that has passed step 2 of R168: its request, or, where the mode of Start
Track or Stop Track is none of the table's, the refusal BAD_VALUE of R62 and R186. -/
def frameOwner (f : Frame) : State → State × Answer :=
  match f.command with
  | some i => ownerOf i
  | none => if f.kind = 0x33 then startBadValue (f.payload.headD 0) else fun s => (s, .say .badValue (zeros 8))

/-! ## The frame assembler -/

/-- The frame that the bytes after a SYNC hold, LEN first (R162). -/
def frameAt (len : Byte) (rest : List Byte) : Frame :=
  ⟨rest.headD 0, rest.tail.headD 0, (rest.take len.toNat).drop 2⟩

/-- Whether the bytes after a SYNC, LEN first, are followed by their CRC (R164). -/
def checkPasses (len : Byte) (rest : List Byte) : Bool :=
  (rest.drop len.toNat).take 2 == le16 (crc16 (len :: rest.take len.toNat))

/-- The link unit with its FIFO and assembler replaced. -/
def State.assemble (s : State) (fifo : List Byte) (assembler : Assembler) : State :=
  { s with link := { s.link with fifo := fifo, assembler := assembler } }

/-- The assembler examines the FIFO, and the dispatcher takes the good frames it may take, until the bytes are exhausted or a
frame waits (R163, R164, R167). Every byte is passed over at most once in each of four states, so four steps a byte are
enough; a SYNC and what follows it stay in the FIFO until the frame is taken or discarded (R161). -/
def State.pumpFor : Nat → State → State
  | 0, s => s
  | n + 1, s =>
    match s.link.assembler with
    | .hunt =>
      match s.link.fifo with
      | [] => s
      | b :: rest =>
        if b = 0xA5 then State.pumpFor n (s.assemble (b :: rest) .length) else State.pumpFor n (s.assemble rest .hunt)
    | .length =>
      match s.link.fifo with
      | sync :: len :: rest =>
        if 2 ≤ len.toNat ∧ len.toNat ≤ 242 then State.pumpFor n (s.assemble (sync :: len :: rest) .body)
        else State.pumpFor n ((s.assemble rest .hunt).linkFault .length)
      | _ => s
    | .body =>
      match s.link.fifo with
      | sync :: len :: rest =>
        if rest.length < len.toNat + 2 then s
        else if checkPasses len rest then
          State.pumpFor n (s.assemble (sync :: len :: rest) .waiting).restartSilence
        else State.pumpFor n ((s.assemble (len :: rest) .hunt).linkFault .crc)
      | _ => s
    | .waiting =>
      match s.link.fifo with
      | _ :: len :: rest =>
        if s.canTake then
          State.pumpFor n ((s.assemble (rest.drop (len.toNat + 2)) .hunt).dispatch (frameAt len rest)
            (frameOwner (frameAt len rest)))
        else s
      | _ => s

/-- The assembler and the dispatcher go on as far as they can. -/
def State.pump (s : State) : State := State.pumpFor (4 * s.link.fifo.length + 4) s

/-- A byte's stop bit has been sampled on RXD (R161): outside the running phase it is discarded (R185); at a full FIFO it is
dropped, counting OVERRUN if it begins a run; otherwise it enters the FIFO and the assembler examines it. -/
def State.receiveByte (s : State) (b : Byte) : State :=
  if s.phase ≠ .running then s
  else if Config.fifoBytes ≤ s.link.fifo.length then
    let s' := { s with link := { s.link with dropping := true, sinceByte := 0 } }
    if s.link.dropping then s' else s'.linkFault .overrun
  else
    ({ s with link := { s.link with fifo := s.link.fifo ++ [b], dropping := false, sinceByte := 0 } }).pump

/-- The gap timer expires: the partial frame is discarded and its bytes released, a TIMEOUT fault is counted, the assembler is
in HUNT (R165). -/
def State.gapExpired (s : State) : State := (s.assemble [] .hunt).linkFault .timeout

/-! ## A request row -/

/-- A good frame arrives whole (log entry 1): while the part is not at work it is discarded (R185); when the dispatcher may
take it and no earlier byte stands in the FIFO, the silence timer restarts and it is dispatched at once; otherwise its bytes
enter the FIFO behind what stands there, so that frames are taken in the order of their bytes (R167). -/
def State.frameArrives (s : State) (f : Frame) (own : State → State × Answer) : State :=
  if s.phase ≠ .running then s
  else if s.takesAtOnce then s.restartSilence.dispatch f own
  else f.bytes.foldl State.receiveByte s

/-- A request row of the table: the frame that carries it arrives. -/
def State.request (s : State) (i : Instr) (own : State → State × Answer) : State :=
  match i.frame with
  | none => s
  | some f => s.frameArrives f own

/-! ## The transmit arbiter (R174) -/

/-- Bits per second of a link rate code (R160). -/
def baud (rate : BitVec 2) : Nat :=
  match rate.toNat with
  | 0 => 115200
  | 1 => 460800
  | 2 => 1000000
  | _ => 3000000

/-- Base clock periods of n byte-times at a link rate: n times ten bits, rounded up (R160; log entries 9 and 25). -/
def byteTimes (rate : BitVec 2) (n : Nat) : Nat := (n * 1000000000 + (baud rate - 1)) / baud rate

/-- A frame is handed to TXD (R174). -/
def State.send (s : State) (f : Frame) : State :=
  { s with link := { s.link with txd := some ⟨f.bytes, byteTimes s.linkRate f.bytes.length⟩ } }

/-- The oldest unsent entry of a queue, and the queue with its sent flag set (R153). -/
def takeUnsent : List Entry → Option (Entry × List Entry)
  | [] => none
  | e :: rest =>
    if e.sent then (takeUnsent rest).map fun (e', rest') => (e', e :: rest')
    else some (e, { e with sent := true } :: rest)

/-- The arbiter takes a reply: the reply to an executed Reset Part ends its work; any other immediate reply frees a place for
the dispatcher (R167); a deferred reply is stored if its session is still open (R172). -/
def State.replyTaken (s : State) : Outgoing → State
  | .immediate r =>
    if s.resetPart = .executed ∧ r.kind = 0x85 ∧ r.status = .ok then { s with resetPart := .replyTaken } else s.pump
  | .deferred r cacheable => if cacheable then s.cacheReply r else s

/-- Whether the arbiter has a frame to take: after the Reset Part reply none; notices, replies, and, while a session is open
and no Reset Part is executed, unsent events (R174, R184). -/
def State.hasFrame (s : State) : Bool :=
  decide (s.resetPart ≠ .replyTaken) &&
    (!s.link.notices.isEmpty || !s.link.replies.isEmpty ||
      (s.isOpen && decide (s.resetPart = .none) && s.events.queue.any (!·.sent)))

/-- The arbiter takes the next frame: a notice, else the oldest reply, else the oldest unsent event (R174, R153). -/
def State.transmit (s : State) : State :=
  if !s.hasFrame then s
  else
    match s.link.notices, s.link.replies with
    | n :: rest, _ => ({ s with link := { s.link with notices := rest } }).send n.frame
    | [], o :: rest => (({ s with link := { s.link with replies := rest } }).send o.reply.frame).replyTaken o
    | [], [] =>
      match takeUnsent s.events.queue with
      | none => s
      | some (e, queue) => ({ s with events := { s.events with queue := queue } }).send e.frame

end Sys2Proof.Machine
end

