-- ==== Sys2Proof/Machine/Clock.lean ====
section
/-! DEFINITION. The passing of time (R106) and the part's own timed actions: when each is due, and a timed command, which takes
the part to the moment its action is due and does it there (log entries 2, 3, 4). -/

namespace Sys2Proof.Machine

/-! ## The base clock -/

/-- A phase after n base clock periods (R185). -/
def Phase.passed (n : Nat) : Phase → Phase
  | .startUp remaining => .startUp (remaining - n)
  | .reset => .reset
  | .running => .running

/-- 32 byte-times at a link rate, in base clock periods: the gap timer's limit (R165; log entry 25). -/
def gapLimit (rate : BitVec 2) : Nat := byteTimes rate 32

/-- A waiting read after n base clock periods (R141). -/
def WaitingRead.passed (n : Nat) (w : WaitingRead) : WaitingRead := { w with remaining := w.remaining - n }

/-- A frame on TXD after n base clock periods (R160). -/
def TxFrame.passed (n : Nat) (f : TxFrame) : TxFrame := { f with remaining := f.remaining - n }

/-- n periods of the base clock pass: the timeline advances by 1 for each divider of them, the silence timer, the waiting
read, the start-up interval and TXD run down, the gap timer counts (R106, R141, R165, R181, R185). In a reset nothing runs. -/
def State.advance (s : State) (n : Nat) : State :=
  if s.phase = .reset then s
  else
    { s with
      timeline := s.timeline + BitVec.ofNat 48 ((s.prescale + n) / s.divider)
      prescale := (s.prescale + n) % s.divider
      phase := s.phase.passed n
      session := { s.session with silence := s.session.silence.map (· - n) }
      journal := { s.journal with waiting := s.journal.waiting.map (WaitingRead.passed n) }
      link := { s.link with
        sinceByte := min (s.link.sinceByte + n) (gapLimit s.linkRate)
        txd := s.link.txd.map (TxFrame.passed n) } }

/-- The base clock periods until the timeline reaches a tick, 0 when it does not lie ahead of now (R106, R107; log entry 21). At a
divider above 1 this is the first base clock period of the tick. That a timed action such as the missing-pulse expiry falls in
that period is the model's choice where no rule places it within its tick (R114, R117; log entry 32). -/
def State.periodsUntil (s : State) (t : Stamp) : Nat :=
  if ahead t s.timeline then (t - s.timeline).toNat * s.divider - s.prescale else 0

/-! ## When each timed action is due -/

/-- When the candidate of an input line is due for acceptance: at f plus the filter (R123). One that the present sample accepts
already is due no more. -/
def State.edgeDelay (s : State) (l : LineId) : Option Nat :=
  match s.lines[l].role with
  | .input filter _ _ (some f) =>
    if s.sample.accepted.getLsbD l then none else some (s.periodsUntil (f + filter.setWidth 48))
  | .unused | .output _ | .input _ _ _ none => none

/-- Whether a delay is known and no longer than d. -/
def noLater (d : Nat) (delay : Option Nat) : Bool :=
  match delay with
  | none => false
  | some d' => decide (d' ≤ d)

/-- When an edge may be accepted: candidates due at one sample are accepted in line number order (R135; log entry 23). -/
def State.edgeTurn (s : State) (l : LineId) : Option Nat :=
  match s.edgeDelay l with
  | none => none
  | some d => if allLines.any fun l' => decide (l' < l) && noLater d (s.edgeDelay l') then none else some d

/-- When a held firing is discarded: at its acceptance time plus 2^46 ticks (R90). -/
def State.discardDelay (s : State) (k : TriggerId) : Option Nat :=
  match s.triggers[k].latch with
  | .fired _ c _ => some (s.periodsUntil (c + tickCount Config.firingAge))
  | .disarmed | .armed | .blocked => none

/-- When a gate's timeout expires: at its expiry, while no firing has released the track (R101). -/
def State.gateDelay (s : State) (t : TrackId) : Option Nat :=
  match s.tracks[t].state with
  | .stalled _ g => if g.resume.isSome then none else g.expiry.map s.periodsUntil
  | .disabled | .idle | .armed _ | .playing _ | .holding _ | .faulted => none

/-- When a released track resumes: at the acceptance time plus 4 (R100). -/
def State.resumeDelay (s : State) (t : TrackId) : Option Nat :=
  match s.tracks[t].state with
  | .stalled _ g => g.resume.map s.periodsUntil
  | .disabled | .idle | .armed _ | .playing _ | .holding _ | .faulted => none

/-- When an armed start takes effect: at its start time, in form TIMED (R67). -/
def State.startDelay (s : State) (t : TrackId) : Option Nat :=
  match s.tracks[t].state with
  | .armed ⟨.timed start _, _⟩ => some (s.periodsUntil start)
  | _ => none

/-- When a release start takes effect (R77). -/
def State.releaseDelay (s : State) (t : TrackId) : Option Nat :=
  match s.tracks[t].state with
  | .holding release => release.map s.periodsUntil
  | .disabled | .idle | .armed _ | .playing _ | .stalled _ _ | .faulted => none

/-- When a PLAYING track acts next: when its page time reaches its next pulse end, step or period (R33, R34). -/
def State.actionDelay (s : State) (t : TrackId) : Option Nat :=
  match s.tracks[t].state with
  | .playing p => some (s.periodsUntil (p.repStart + p.stall + tickCount (s.nextPoint p)))
  | .disabled | .idle | .armed _ | .stalled _ _ | .holding _ | .faulted => none

/-- When the start-up interval ends (R185). -/
def State.startUpDelay (s : State) : Option Nat :=
  match s.phase with
  | .startUp remaining => some remaining
  | .reset | .running => none

/-- When the gap timer expires: it runs in LENGTH and BODY (R165). -/
def State.gapDelay (s : State) : Option Nat :=
  match s.link.assembler with
  | .length | .body => some (gapLimit s.linkRate - s.link.sinceByte)
  | .hunt | .waiting => none

/-- The base clock periods until TXD is idle (R174). -/
def State.txdDelay (s : State) : Nat := (s.link.txd.map TxFrame.remaining).getD 0

/-- When a timed command's action is due, in base clock periods; none when it is not scheduled. Every other command is none. -/
def State.due (s : State) (c : Instr) : Option Nat :=
  match c with
  | .startUpEnd => s.startUpDelay
  | .keepaliveExpiry => s.session.silence
  | .gapTimeout => s.gapDelay
  | .journalWaitExpiry => s.journal.waiting.map WaitingRead.remaining
  | .missingPulseExpiry => s.reference.expiry.map s.periodsUntil
  | .firingAgeDiscard k => s.discardDelay k
  | .gateExpiry t => s.gateDelay t
  | .gateResume t => s.resumeDelay t
  | .armedStartEffect t => s.startDelay t
  | .releaseStartEffect t => s.releaseDelay t
  | .trackActionTick t => s.actionDelay t
  | .edgeAcceptance l => s.edgeTurn l
  | .transmitNextFrame => if s.hasFrame then some s.txdDelay else none
  | .resetRequest => if s.resetPart = .replyTaken then some s.txdDelay else none
  | .resetEnd _ => if s.phase = .reset ∧ s.cause = .request then some 0 else none
  | _ => none

/-- The timed actions that happen at their moment whatever is commanded: no timed command passes over one of them. -/
def timers : List Instr :=
  [.startUpEnd, .keepaliveExpiry, .gapTimeout, .journalWaitExpiry, .missingPulseExpiry, .resetRequest] ++
    allTriggers.map Instr.firingAgeDiscard ++ allTracks.map Instr.gateExpiry ++ allTracks.map Instr.gateResume ++
    allTracks.map Instr.armedStartEffect ++ allTracks.map Instr.releaseStartEffect ++
    allTracks.map Instr.trackActionTick ++ allLines.map Instr.edgeAcceptance

/-- Whether no timed action falls due before d periods have passed. -/
def State.nothingBefore (s : State) (d : Nat) : Bool :=
  timers.all fun c => match s.due c with
    | none => true
    | some d' => decide (d ≤ d')

/-- A timed command: at a moment when its action is due it acts; when the action is due later and nothing falls due before it,
the time until then passes and it acts; otherwise it changes nothing (log entry 3). -/
def State.atDue (s : State) (c : Instr) (act : State → State) : State :=
  match s.due c with
  | none => s
  | some 0 => act s
  | some (d + 1) => if s.nothingBefore (d + 1) then act (s.advance (d + 1)) else s

/-! ## The empty queue -/

/-- The actions due now (log entry 2). The straps at the end of a REQUEST reset are those last given (log entry 8). -/
def State.dueNow (s : State) : List Instr :=
  (timers ++ [Instr.transmitNextFrame, Instr.resetEnd s.straps]).filter fun c => s.due c == some 0

/-- The action the part takes next of those due now, in a free order (log entry 4). -/
def State.choose (s : State) : Option Instr :=
  match s.dueNow with
  | [] => none
  | [c] => some c
  | c :: d :: rest => (c :: d :: rest)[Config.dueOrder s.choices % (rest.length + 2)]?

end Sys2Proof.Machine
end

