-- ==== Sys2Proof/Machine/Samples.lean ====
section
/-! DEFINITION. A sample of the pins, told by the rows INPUT_TRANSITION and EDGE_ACCEPTANCE that stand one behind the other in the
queue (R123, R135; log entry 29). -/

namespace Sys2Proof.Machine

/-- Whether the waiting rows go on with the sample that is being taken: the next is the level of a line, or the acceptance of a
candidate that is due now, an acceptance that is not scheduled being passed over (log entry 29). -/
def State.rowsGoOn (s : State) : List Instr → Bool
  | .inputTransition _ _ :: _ => true
  | .edgeAcceptance l :: rest =>
    match s.due (.edgeAcceptance l) with
    | none => s.rowsGoOn rest
    | some d => decide (d = 0)
  | _ => false

/-- After a row of a sample: the sample ends unless the waiting rows go on with it. -/
def State.endSampleAtLastRow (s : State) : State := if s.rowsGoOn s.pending then s else s.endSample

/-- Whether the level of a line must be that of a later sample: the present one has shown the line, since it samples each pin
once, or accepts the line's candidate, which it then showed at the other level (R123). -/
def State.sampledAgain (s : State) (l : LineId) (level : Bool) : Bool :=
  s.sample.shown.getLsbD l ||
    (s.sample.accepted.getLsbD l &&
      match s.lines[l].role with
      | .input _ _ sensed _ => level == sensed
      | .unused | .output _ => false)

/-- The level on a pin at a sample (R120, R123): the outside level is kept, and an input line looks at it. -/
def State.showLevel (s : State) (l : LineId) (level : Bool) : State :=
  ({ s with
    pinLevels := if level then s.pinLevels ||| BitVec.twoPow 16 l else s.pinLevels &&& ~~~BitVec.twoPow 16 l
    sample := { s.sample with shown := s.sample.shown ||| BitVec.twoPow 16 l } }).modifyLine l
    fun ln => { ln with role := ln.role.sampled level s.timeline }

/-- A row INPUT_TRANSITION: it ends a sample that has shown its line already, shows its level, and ends its own sample unless
that goes on. -/
def State.samplePin (s : State) (l : LineId) (level : Bool) : State :=
  ((if s.sampledAgain l level then s.endSample else s).showLevel l level).endSampleAtLastRow

/-- The sample that is being taken accepts the candidate of a line. -/
def State.joinSample (s : State) (l : LineId) : State :=
  { s with sample := { s.sample with accepted := s.sample.accepted ||| BitVec.twoPow 16 l } }

/-- A row EDGE_ACCEPTANCE, at the moment its candidate is due: the sample accepts it, with the others of that sample. -/
def State.acceptInSample (s : State) (l : LineId) : State := (s.joinSample l).endSampleAtLastRow

end Sys2Proof.Machine
end

