-- ==== Sys2Proof/Machine/Actions.lean ====
section
/-! DEFINITION. The meanings of the rows of the table that are no requests: the link, reset and start-up, the inputs and the
reference, and the part's own timed actions (log entry 3). -/

namespace Sys2Proof.Machine

/-- BYTE_RECEIVED: a byte's stop bit has been sampled on RXD (R161). -/
def execByteReceived (byte : Byte) (s : State) : Host.Outcome State Fault Refusal :=
  .next (s.receiveByte byte)

/-- GAP_TIMEOUT: 32 byte-times have passed inside a frame (R165). -/
def execGapTimeout (s : State) : Host.Outcome State Fault Refusal :=
  .next (s.atDue .gapTimeout State.gapExpired)

/-- KEEPALIVE_EXPIRY: the silence timer expires (R181). -/
def execKeepaliveExpiry (s : State) : Host.Outcome State Fault Refusal :=
  .next (s.atDue .keepaliveExpiry State.loseLink)

/-- TRANSMIT_NEXT_FRAME: TXD is idle or a frame has ended, and the arbiter takes the next frame (R174). -/
def execTransmitNextFrame (s : State) : Host.Outcome State Fault Refusal :=
  .next (s.atDue .transmitNextFrame State.transmit)

/-- RESET_POWER: the supply falls below its operating level, or power-up (R184). -/
def execResetPower (s : State) : Host.Outcome State Fault Refusal :=
  .next (s.beginReset .power)

/-- RESET_PIN: RESETn goes low; during a POWER reset the cause stays POWER (R184). -/
def execResetPin (s : State) : Host.Outcome State Fault Refusal :=
  .next (s.beginReset (if s.phase = .reset ∧ s.cause = .power then .power else .pin))

/-- RESET_REQUEST: the last stop bit of the reply to an executed Reset Part has been sent (R184). -/
def execResetRequest (s : State) : Host.Outcome State Fault Refusal :=
  .next (s.atDue .resetRequest fun s => s.beginReset .request)

/-- START_UP_END: the start-up interval ends (R185). -/
def execStartUpEnd (s : State) : Host.Outcome State Fault Refusal :=
  .next (s.atDue .startUpEnd State.endStartUp)

/-- INPUT_TRANSITION: a sample of a pin, at a level; with a filter of 0 the sample accepts the candidate it finds (R123). -/
def execInputTransition (line : LineId) (level : Bool) (s : State) : Host.Outcome State Fault Refusal :=
  .next (s.samplePin line level)

/-- EDGE_ACCEPTANCE: a candidate has held for its filter setting (R123, R125). An INPUT_TRANSITION, or an acceptance that is due
too, right behind it is of the same sample, whose edges are recorded in line number order (R135; log entry 29). -/
def execEdgeAcceptance (line : LineId) (s : State) : Host.Outcome State Fault Refusal :=
  .next (s.atDue (.edgeAcceptance line) fun s => s.acceptInSample line)

/-- REFERENCE_PULSE: a rising edge on REFIN; before a reset ends it is not counted (R112, R118). -/
def execReferencePulse (s : State) : Host.Outcome State Fault Refusal :=
  .next (if s.phase = .reset then s else s.pulse)

/-- MISSING_PULSE_EXPIRY: the missing-pulse timer expires (R114). -/
def execMissingPulseExpiry (s : State) : Host.Outcome State Fault Refusal :=
  .next (s.atDue .missingPulseExpiry State.missPulse)

/-- FIRING_AGE_DISCARD: a firing has been held for 2^46 ticks (R90). -/
def execFiringAgeDiscard (trigger : TriggerId) (s : State) : Host.Outcome State Fault Refusal :=
  .next (s.atDue (.firingAgeDiscard trigger) fun s => s.discardFiring trigger)

/-- GATE_EXPIRY: a gate's timeout expires (R101, R102). -/
def execGateExpiry (track : TrackId) (s : State) : Host.Outcome State Fault Refusal :=
  .next (s.atDue (.gateExpiry track) fun s => s.endGate track)

/-- GATE_RESUME: a track released at a gate resumes page time (R100). -/
def execGateResume (track : TrackId) (s : State) : Host.Outcome State Fault Refusal :=
  .next (s.atDue (.gateResume track) fun s => s.resumeReleased track)

/-- JOURNAL_WAIT_EXPIRY: the waiting read's wait runs out (R141). -/
def execJournalWaitExpiry (s : State) : Host.Outcome State Fault Refusal :=
  .next (s.atDue .journalWaitExpiry State.expireRead)

/-- ARMED_START_EFFECT: the timeline reaches the time of a TIMED start (R67). -/
def execArmedStartEffect (track : TrackId) (s : State) : Host.Outcome State Fault Refusal :=
  .next (s.atDue (.armedStartEffect track) fun s => s.startEffect track)

/-- RELEASE_START_EFFECT: the timeline reaches a release start (R77). -/
def execReleaseStartEffect (track : TrackId) (s : State) : Host.Outcome State Fault Refusal :=
  .next (s.atDue (.releaseStartEffect track) fun s => s.releaseEffect track)

/-- TRACK_ACTION_TICK: page time reaches a pulse end, the period or step offsets (R34). -/
def execTrackActionTick (track : TrackId) (s : State) : Host.Outcome State Fault Refusal :=
  .next (s.atDue (.trackActionTick track) fun s => s.trackActions track)

/-- RESET_END: the reset ends and the straps are sampled (R160, R184). -/
def execResetEnd (straps : BitVec 2) (s : State) : Host.Outcome State Fault Refusal :=
  .next (if s.phase = .reset then s.endReset straps else s)

end Sys2Proof.Machine
end

