-- ==== Sys2Proof/Machine/Requests.lean ====
section
/-! DEFINITION. The meanings of the request rows of the table and of BAD_KIND_FRAME: the frame arrives whole (log entry 1) and
is handled by the dispatcher in the order of R168, its owning block's answer standing at step 6. -/

namespace Sys2Proof.Machine

/-- Identify (01h): reports the part and its session, changes nothing (R183). -/
def execIdentify (tag : Byte) (s : State) : Host.Outcome State Fault Refusal :=
  .next (s.request (.identify tag) answerIdentify)

/-- Open Session (02h): ends any open session and opens the next (R178). -/
def execOpenSession (tag : Byte) (keepalive : Word16) (s : State) : Host.Outcome State Fault Refusal :=
  .next (s.request (.openSession tag keepalive) (answerOpenSession keepalive))

/-- Close Session (03h): ends the open session (R179). -/
def execCloseSession (tag : Byte) (s : State) : Host.Outcome State Fault Refusal :=
  .next (s.request (.closeSession tag) answerCloseSession)

/-- Ping (04h): echoes up to 239 bytes (R182). -/
def execPing (tag : Byte) (payload : List Byte) (s : State) : Host.Outcome State Fault Refusal :=
  .next (s.request (.ping tag payload) (answerPing payload))

/-- Reset Part (05h): replies OK, then the part resets once the reply has been sent (R184). -/
def execResetPart (tag : Byte) (s : State) : Host.Outcome State Fault Refusal :=
  .next (s.request (.resetPart tag) answerResetPart)

/-- Ack Events (06h): removes the sent entries through a number (R155). -/
def execAckEvents (tag : Byte) (seq : Word16) (s : State) : Host.Outcome State Fault Refusal :=
  .next (s.request (.ackEvents tag seq) (answerAckEvents seq))

/-- Replay Events (07h): marks a held entry and every later one unsent (R156). -/
def execReplayEvents (tag : Byte) (seq : Word16) (s : State) : Host.Outcome State Fault Refusal :=
  .next (s.request (.replayEvents tag seq) (answerReplayEvents seq))

/-- Read Time (10h): reports now, the divider and the reference (R109). -/
def execReadTime (tag : Byte) (s : State) : Host.Outcome State Fault Refusal :=
  .next (s.request (.readTime tag) answerReadTime)

/-- Set Tick (11h): changes the tick divider (R110). -/
def execSetTick (tag divider : Byte) (s : State) : Host.Outcome State Fault Refusal :=
  .next (s.request (.setTick tag divider) (answerSetTick divider))

/-- Set Reference (12h): stores interval and window and restarts checking (R115). -/
def execSetReference (tag : Byte) (interval : Word32) (window : Word16) (s : State) :
    Host.Outcome State Fault Refusal :=
  .next (s.request (.setReference tag interval window) (answerSetReference interval window))

/-- Read Reference (13h): reports the reference unit (R116). -/
def execReadReference (tag : Byte) (s : State) : Host.Outcome State Fault Refusal :=
  .next (s.request (.readReference tag) answerReadReference)

/-- Configure Line (18h): sets a line's role, rest level, filter and capture edges (R126, R127). -/
def execConfigureLine (tag line role rest filter capture : Byte) (s : State) : Host.Outcome State Fault Refusal :=
  .next (s.request (.configureLine tag line role rest filter capture)
    (answerConfigureLine line role rest filter capture))

/-- Read Lines (19h): reports all sixteen lines (R128). -/
def execReadLines (tag : Byte) (s : State) : Host.Outcome State Fault Refusal :=
  .next (s.request (.readLines tag) answerReadLines)

/-- Open Page (20h): takes the lowest-numbered FREE page into OPEN (R11). -/
def execOpenPage (tag : Byte) (period : Word32) (repeats : Word16) (flags reserved : Byte) (s : State) :
    Host.Outcome State Fault Refusal :=
  .next (s.request (.openPage tag period repeats flags reserved) (answerOpenPage period repeats flags reserved))

/-- Append Steps (21h): appends all of its steps to an OPEN page, or none (R12, R13, R14). -/
def execAppendSteps (tag page reserved : Byte) (records : List StepRecord) (s : State) :
    Host.Outcome State Fault Refusal :=
  .next (s.request (.appendSteps tag page reserved records) (answerAppendSteps page reserved records))

/-- Seal Page (22h): seals an OPEN page and derives its footprint and gate set (R15, R16). -/
def execSealPage (tag page : Byte) (s : State) : Host.Outcome State Fault Refusal :=
  .next (s.request (.sealPage tag page) (answerSealPage page))

/-- Discard Page (23h): frees an OPEN or SEALED page (R17). -/
def execDiscardPage (tag page : Byte) (s : State) : Host.Outcome State Fault Refusal :=
  .next (s.request (.discardPage tag page) (answerDiscardPage page))

/-- Read Page (24h): reports a page and up to 19 of its steps (R18). -/
def execReadPage (tag page first : Byte) (s : State) : Host.Outcome State Fault Refusal :=
  .next (s.request (.readPage tag page first) (answerReadPage page first))

/-- Read Pool (25h): reports the counts and every page's state and owner (R19). -/
def execReadPool (tag : Byte) (s : State) : Host.Outcome State Fault Refusal :=
  .next (s.request (.readPool tag) answerReadPool)

/-- Configure Track (30h): enables, disables or reconfigures a track (R50 to R56). -/
def execConfigureTrack (tag track enable policy options : Byte) (group rest : LineSet) (s : State) :
    Host.Outcome State Fault Refusal :=
  .next (s.request (.configureTrack tag track enable policy options group rest)
    (answerConfigureTrack track enable policy options group rest))

/-- Queue Page (31h): appends a SEALED page to a track's queue (R57, R58). -/
def execQueuePage (tag page track : Byte) (s : State) : Host.Outcome State Fault Refusal :=
  .next (s.request (.queuePage tag page track) (answerQueuePage page track))

/-- Flush Queue (32h): removes every queued page, cancels an armed start, removes a release start (R78). -/
def execFlushQueue (tag track : Byte) (s : State) : Host.Outcome State Fault Refusal :=
  .next (s.request (.flushQueue tag track) (answerFlushQueue track))

/-- Start Track (33h) in mode AT (R62, R63). -/
def execStartTrackAt (tag track options trigger : Byte) (time : Stamp) (offset : Word32) (s : State) :
    Host.Outcome State Fault Refusal :=
  .next (s.request (.startTrackAt tag track options trigger time offset)
    (answerStartAt track options trigger time offset))

/-- Start Track (33h) in mode AFTER (R62, R63). -/
def execStartTrackAfter (tag track options trigger : Byte) (time : Stamp) (offset : Word32) (s : State) :
    Host.Outcome State Fault Refusal :=
  .next (s.request (.startTrackAfter tag track options trigger time offset)
    (answerStartAfter track options trigger time offset))

/-- Start Track (33h) in mode ON_TRIGGER (R62, R64). -/
def execStartTrackOnTrigger (tag track options trigger : Byte) (time : Stamp) (offset : Word32) (s : State) :
    Host.Outcome State Fault Refusal :=
  .next (s.request (.startTrackOnTrigger tag track options trigger time offset)
    (answerStartOnTrigger track options trigger time offset))

/-- Start Track (33h) in mode AT_EPOCH (R62, R65). -/
def execStartTrackAtEpoch (tag track options trigger : Byte) (time : Stamp) (offset : Word32) (s : State) :
    Host.Outcome State Fault Refusal :=
  .next (s.request (.startTrackAtEpoch tag track options trigger time offset)
    (answerStartAtEpoch track options trigger time offset))

/-- Stop Track (34h) in mode ABORT (R71). -/
def execStopTrackAbort (tag track : Byte) (s : State) : Host.Outcome State Fault Refusal :=
  .next (s.request (.stopTrackAbort tag track) (answerStopAbort track))

/-- Stop Track (34h) in mode END (R72, R74). -/
def execStopTrackEnd (tag track : Byte) (s : State) : Host.Outcome State Fault Refusal :=
  .next (s.request (.stopTrackEnd tag track) (answerStopEnd track))

/-- Hold Track (35h): sets the hold flag (R75). -/
def execHoldTrack (tag track : Byte) (s : State) : Host.Outcome State Fault Refusal :=
  .next (s.request (.holdTrack tag track) (answerHoldTrack track))

/-- Release Track (36h): sets a release start or clears a hold flag (R76). -/
def execReleaseTrack (tag track : Byte) (s : State) : Host.Outcome State Fault Refusal :=
  .next (s.request (.releaseTrack tag track) (answerReleaseTrack track))

/-- Read Track (37h): reports a track (R80). -/
def execReadTrack (tag track : Byte) (s : State) : Host.Outcome State Fault Refusal :=
  .next (s.request (.readTrack tag track) (answerReadTrack track))

/-- Arm Trigger (40h): configures and arms a DISARMED trigger (R87, R88). -/
def execArmTrigger (tag trigger line sense count flags : Byte) (s : State) : Host.Outcome State Fault Refusal :=
  .next (s.request (.armTrigger tag trigger line sense count flags) (answerArmTrigger trigger line sense count flags))

/-- Disarm Trigger (41h): disarms a trigger and dismisses its consumers (R94, R103). -/
def execDisarmTrigger (tag trigger : Byte) (s : State) : Host.Outcome State Fault Refusal :=
  .next (s.request (.disarmTrigger tag trigger) (answerDisarmTrigger trigger))

/-- Read Trigger (42h): reports a trigger (R95). -/
def execReadTrigger (tag trigger : Byte) (s : State) : Host.Outcome State Fault Refusal :=
  .next (s.request (.readTrigger tag trigger) (answerReadTrigger trigger))

/-- Read Journal (48h): acknowledges and returns records, or waits for one (R138 to R141). -/
def execReadJournal (tag : Byte) (ack : Word16) (maximum reserved : Byte) (wait : Word16) (s : State) :
    Host.Outcome State Fault Refusal :=
  .next (s.request (.readJournal tag ack maximum reserved wait) (answerReadJournal ack maximum reserved wait))

/-- Set Journal (49h): stores the watermark (R143). -/
def execSetJournal (tag : Byte) (watermark : Word16) (s : State) : Host.Outcome State Fault Refusal :=
  .next (s.request (.setJournal tag watermark) (answerSetJournal watermark))

/-- A good frame whose kind is not a request kind is answered with kind FFh, BAD_KIND and the kind received (R168 step 1,
R169). -/
def execBadKindFrame (tag kind : Byte) (payload : List Byte) (s : State) : Host.Outcome State Fault Refusal :=
  .next (s.request (.badKindFrame tag kind payload) (frameOwner ⟨kind, tag, payload⟩))

end Sys2Proof.Machine
end

