-- ==== Sys2Proof/Machine/Dispatch.lean ====
section
/-! DEFINITION. What each command does: one arm per constructor of Instr, one direct call of its meaning. -/

namespace Sys2Proof.Machine

/-- The effect of a command on everything but the queue (R168, 95_what_each_step_holds.md). -/
def exec (i : Instr) (s : State) : Host.Outcome State Fault Refusal :=
  match i with
  | .identify tag => Sys2Proof.Machine.execIdentify tag s
  | .openSession tag keepalive => Sys2Proof.Machine.execOpenSession tag keepalive s
  | .closeSession tag => Sys2Proof.Machine.execCloseSession tag s
  | .ping tag payload => Sys2Proof.Machine.execPing tag payload s
  | .resetPart tag => Sys2Proof.Machine.execResetPart tag s
  | .ackEvents tag seq => Sys2Proof.Machine.execAckEvents tag seq s
  | .replayEvents tag seq => Sys2Proof.Machine.execReplayEvents tag seq s
  | .readTime tag => Sys2Proof.Machine.execReadTime tag s
  | .setTick tag divider => Sys2Proof.Machine.execSetTick tag divider s
  | .setReference tag interval window => Sys2Proof.Machine.execSetReference tag interval window s
  | .readReference tag => Sys2Proof.Machine.execReadReference tag s
  | .configureLine tag line role rest filter capture => Sys2Proof.Machine.execConfigureLine tag line role rest filter capture s
  | .readLines tag => Sys2Proof.Machine.execReadLines tag s
  | .openPage tag period repeats flags reserved => Sys2Proof.Machine.execOpenPage tag period repeats flags reserved s
  | .appendSteps tag page reserved records => Sys2Proof.Machine.execAppendSteps tag page reserved records s
  | .sealPage tag page => Sys2Proof.Machine.execSealPage tag page s
  | .discardPage tag page => Sys2Proof.Machine.execDiscardPage tag page s
  | .readPage tag page first => Sys2Proof.Machine.execReadPage tag page first s
  | .readPool tag => Sys2Proof.Machine.execReadPool tag s
  | .configureTrack tag track enable policy options group rest => Sys2Proof.Machine.execConfigureTrack tag track enable policy options group rest s
  | .queuePage tag page track => Sys2Proof.Machine.execQueuePage tag page track s
  | .flushQueue tag track => Sys2Proof.Machine.execFlushQueue tag track s
  | .startTrackAt tag track options trigger time offset => Sys2Proof.Machine.execStartTrackAt tag track options trigger time offset s
  | .startTrackAfter tag track options trigger time offset => Sys2Proof.Machine.execStartTrackAfter tag track options trigger time offset s
  | .startTrackOnTrigger tag track options trigger time offset => Sys2Proof.Machine.execStartTrackOnTrigger tag track options trigger time offset s
  | .startTrackAtEpoch tag track options trigger time offset => Sys2Proof.Machine.execStartTrackAtEpoch tag track options trigger time offset s
  | .stopTrackAbort tag track => Sys2Proof.Machine.execStopTrackAbort tag track s
  | .stopTrackEnd tag track => Sys2Proof.Machine.execStopTrackEnd tag track s
  | .holdTrack tag track => Sys2Proof.Machine.execHoldTrack tag track s
  | .releaseTrack tag track => Sys2Proof.Machine.execReleaseTrack tag track s
  | .readTrack tag track => Sys2Proof.Machine.execReadTrack tag track s
  | .armTrigger tag trigger line sense count flags => Sys2Proof.Machine.execArmTrigger tag trigger line sense count flags s
  | .disarmTrigger tag trigger => Sys2Proof.Machine.execDisarmTrigger tag trigger s
  | .readTrigger tag trigger => Sys2Proof.Machine.execReadTrigger tag trigger s
  | .readJournal tag ack maximum reserved wait => Sys2Proof.Machine.execReadJournal tag ack maximum reserved wait s
  | .setJournal tag watermark => Sys2Proof.Machine.execSetJournal tag watermark s
  | .badKindFrame tag kind payload => Sys2Proof.Machine.execBadKindFrame tag kind payload s
  | .byteReceived byte => Sys2Proof.Machine.execByteReceived byte s
  | .gapTimeout => Sys2Proof.Machine.execGapTimeout s
  | .keepaliveExpiry => Sys2Proof.Machine.execKeepaliveExpiry s
  | .transmitNextFrame => Sys2Proof.Machine.execTransmitNextFrame s
  | .resetPower => Sys2Proof.Machine.execResetPower s
  | .resetPin => Sys2Proof.Machine.execResetPin s
  | .resetRequest => Sys2Proof.Machine.execResetRequest s
  | .startUpEnd => Sys2Proof.Machine.execStartUpEnd s
  | .inputTransition line level => Sys2Proof.Machine.execInputTransition line level s
  | .edgeAcceptance line => Sys2Proof.Machine.execEdgeAcceptance line s
  | .referencePulse => Sys2Proof.Machine.execReferencePulse s
  | .missingPulseExpiry => Sys2Proof.Machine.execMissingPulseExpiry s
  | .firingAgeDiscard trigger => Sys2Proof.Machine.execFiringAgeDiscard trigger s
  | .gateExpiry track => Sys2Proof.Machine.execGateExpiry track s
  | .gateResume track => Sys2Proof.Machine.execGateResume track s
  | .journalWaitExpiry => Sys2Proof.Machine.execJournalWaitExpiry s
  | .armedStartEffect track => Sys2Proof.Machine.execArmedStartEffect track s
  | .releaseStartEffect track => Sys2Proof.Machine.execReleaseStartEffect track s
  | .trackActionTick track => Sys2Proof.Machine.execTrackActionTick track s
  | .resetEnd straps => Sys2Proof.Machine.execResetEnd straps s

end Sys2Proof.Machine
end

