-- ==== Sys2Proof/Machine/Step.lean ====
section
/-! DEFINITION. One step of the part: the command at the front of its queue, or, on an empty queue, the action that is due or
one period of the base clock. -/

namespace Sys2Proof.Machine

/-- One period of the base clock passes (R106; log entry 2). -/
def State.tick (s : State) : State := s.advance 1

/-- One step. A waiting command is taken from the front of the queue and executed on the state with the queue's rest. With none
waiting the part takes an action that is due now, or lets one base clock period pass (log entries 2 and 4). -/
def step (s : State) : Host.Outcome State Fault Refusal :=
  match s.pending with
  | c :: rest => exec c { s with pending := rest }
  | [] =>
    match s.choose with
    | some c => exec c { s with choices := s.choices + 1 }
    | none => .next s.tick

/-- The state with the command that a word spells at the front of its queue: the table gives no row any bits, so the state
itself (log entry 20). -/
def State.withFetchWord (s : State) (nbits w : Nat) : State :=
  match decodeTableWord nbits w with
  | none => s
  | some c => { s with pending := c :: s.pending }

end Sys2Proof.Machine
end

