-- ==== Sys2Proof/Safety.lean ====
section
/-! DEFINITION. What statements about the part speak of: when the dispatcher executes a request and what an answer leaves
behind, the wait until a timed action, and the laws every step keeps: the capacities, the places of pages (R10), the lines of
groups (R29, R121), the quiet of a closed session (R177), the journal's account of sequence numbers (R133). -/

namespace Sys2Proof.Machine

/-! ## Requests and timed commands -/

/-- The dispatcher takes a request of this kind and tag and executes it: it may take a frame and no earlier byte stands in the
FIFO (R167), the session admits the kind (R168 step 3), and the tag is 0 or neither cached nor in flight (steps 4 and 5). -/
structure State.Executes (s : State) (kind tag : Byte) : Prop where
  takes : s.takesAtOnce = true
  admits : s.isOpen = true ∨ admittedClosed kind = true
  fresh : tag = 0 ∨ (s.cached tag = none ∧ s.inFlight tag = false)

/-- The state after an immediate reply produced at step 6 of R168: stored in the cache under R171, and placed in the transmit
buffer behind the replies already there. -/
def State.answered (s : State) (kind tag : Byte) (status : Status) (fields : List Byte) (gates : TriggerSet := 0) : State :=
  (s.cacheReply ⟨kind, tag, status, gates, fields⟩).pushReply ⟨kind, tag, status, gates, fields⟩

/-- The state after d base clock periods; after none of them, the state itself. -/
def State.afterPeriods (s : State) (d : Nat) : State := if d = 0 then s else s.advance d

/-- A timed command's action is due after d periods, and no timed action falls due before it (log entry 3). -/
def State.dueAfter (s : State) (c : Instr) (d : Nat) : Prop := s.due c = some d ∧ s.nothingBefore d = true

/-- What becomes of the link unit when the deferred request of an owner, if one is held, is answered: the request leaves those
that await a reply, and its reply takes its place behind every reply produced before it, to be stored when the arbiter takes it
(R172). With no such request held nothing changes. -/
def Link.Answered (before after : Link) (owner : Owner) (reply : Byte → Reply) : Prop :=
  ((∀ d ∈ before.awaiting, d.owner ≠ owner) → after = before) ∧
  ∀ (front back : List Deferred) (tag : Byte), before.awaiting = front ++ ⟨owner, tag⟩ :: back →
    (∀ d ∈ front ++ back, d.owner ≠ owner) →
    after = { before with
      awaiting := front ++ back, replies := before.replies ++ [.deferred (reply tag) true] }

/-- The deferred reply of an owner answered ABORTED: of Start Track with the track (R66), of Stop Track END and of Read Journal
with every field 0 (R73, R141, R188; log entry 12). -/
def abortedReply (owner : Owner) (tag : Byte) : Reply :=
  match owner with
  | .start t => ⟨0xB3, tag, .aborted, 0, u8 t.val ++ zeros 15⟩
  | .stopEnd _ => ⟨0xB4, tag, .aborted, 0, zeros 8⟩
  | .readJournal => ⟨0xC8, tag, .aborted, 0, zeros 7⟩

/-- A state is another with a track's pending configuration applied: policy and report options replaced, the rest level of each
line of the group replaced, the driven levels kept, no configuration pending (R55). -/
structure State.Applied (s s' : State) (t : TrackId) (q : PendingConfig) : Prop where
  held : s.tracks[t].pendingConfig = some q
  frame : s' = { s with
    tracks := s.tracks.set t { s.tracks[t] with
      policy := q.policy, reportStarted := q.reportStarted, reportRetired := q.reportRetired, pendingConfig := none }
    lines := s'.lines }
  rest : ∀ l : LineId, s'.lines[l] =
    if s.tracks[t].group.getLsbD l then { s.lines[l] with rest := q.rest.getLsbD l } else s.lines[l]

/-- The base clock periods until the timeline reaches a tick, 0 for a tick that does not lie ahead of now (R106, R107). -/
def State.periodsTo (s : State) (x : Stamp) : Nat :=
  if 0 < (x - s.timeline).toInt then (x - s.timeline).toNat * s.divider - s.prescale else 0

/-- 32 byte-times in base clock periods at each link rate, rounded up (R160, R165; log entry 25). -/
def gapPeriods (rate : BitVec 2) : Nat :=
  match rate.toNat with
  | 0 => 277778
  | 1 => 69445
  | 2 => 32000
  | _ => 10667

/-! ## Capacities -/

/-- The event queue's shape (R148): at most 31 ordinary entries, an Events Lost entry the newest, consecutive sequence numbers
up to the counter, every sent entry older than every unsent one. -/
structure EventUnit.WellFormed (u : EventUnit) : Prop where
  ordinary : u.queue.countP (!·.isLost) ≤ Config.ordinaryEvents
  lostNewest : ∀ (i : Nat) (e : Entry), u.queue[i]? = some e → e.isLost = true → i + 1 = u.queue.length
  consecutive : ∀ (i : Nat) (e : Entry), u.queue[i]? = some e → e.seq = u.next - BitVec.ofNat 16 (u.queue.length - i)
  sentOldest : ∀ (i j : Nat) (e f : Entry), i < j → u.queue[i]? = some e → u.queue[j]? = some f → f.sent = true → e.sent = true

/-- Every store of the part holds no more than its capacity, and a FREE page holds no slot (00_scope.md, Capacities; R9, R106,
R148, R157, R161, R167, R171, R172). -/
structure State.WithinCapacity (s : State) : Prop where
  divider : isDivider s.divider = true ∧ s.prescale < s.divider
  steps : ∀ p : PageId, s.pages[p].steps.length ≤ Config.pageSteps
  store : s.usedSlots ≤ Config.stepSlots
  freeEmpty : ∀ p : PageId, s.pages[p].state = .free → s.pages[p].steps = []
  queues : ∀ t : TrackId, s.tracks[t].queue.length ≤ Config.queueDepth
  records : s.journal.records.length ≤ Config.journalRecords
  events : s.events.WellFormed
  closedEvents : s.isOpen = false → s.events.queue = []
  fifo : s.link.fifo.length ≤ Config.fifoBytes
  buffer : s.buffered ≤ Config.bufferReplies
  slots : s.heldSlots ≤ Config.deferredSlots
  cache : s.link.cache.length ≤ Config.cacheEntries
  tallies : s.link.tallies.crc ≤ 65535 ∧ s.link.tallies.length ≤ 65535 ∧ s.link.tallies.timeout ≤ 65535 ∧
    s.link.tallies.overrun ≤ 65535

/-! ## Pages and tracks (R10, R28) -/

/-- The playback context of a track: in PLAYING and STALLED alone (R27). -/
def TrackState.context : TrackState → Option Playback
  | .playing p => some p
  | .stalled p _ => some p
  | .disabled | .idle | .armed _ | .holding _ | .faulted => none

/-- The active page of a track (R27). -/
def Track.activePage (tr : Track) : Option PageId := tr.state.context.map Playback.page

/-- Every page stands where its state says (R10): a QUEUED page once in the queue of its owner and in no other, an ACTIVE page
as its owner's active page, a page in another state nowhere; and a track's queue fits its state (R28, R77). -/
structure State.Placed (s : State) : Prop where
  queueOnce : ∀ t : TrackId, s.tracks[t].queue.Nodup
  queueOwned : ∀ (t : TrackId) (p : PageId), p ∈ s.tracks[t].queue → s.pages[p].state = .queued ∧ s.pages[p].owner = some t
  activeOwned : ∀ (t : TrackId) (p : PageId), s.tracks[t].activePage = some p →
    s.pages[p].state = .active ∧ s.pages[p].owner = some t
  queuedStands : ∀ p : PageId, s.pages[p].state = .queued → ∃ t : TrackId, p ∈ s.tracks[t].queue
  activeStands : ∀ p : PageId, s.pages[p].state = .active → ∃ t : TrackId, s.tracks[t].activePage = some p
  unowned : ∀ p : PageId, s.pages[p].state ≠ .queued → s.pages[p].state ≠ .active → s.pages[p].owner = none
  disabledEmpty : ∀ t : TrackId, s.tracks[t].state = .disabled → s.tracks[t].queue = []
  armedQueue : ∀ (t : TrackId) (a : ArmedStart), s.tracks[t].state = .armed a → s.tracks[t].queue ≠ []
  releaseQueue : ∀ (t : TrackId) (r : Stamp), s.tracks[t].state = .holding (some r) → s.tracks[t].queue ≠ []

/-! ## Groups and levels (R29, R121) -/

/-- Whether a track's lines stand at rest in a state (R28): IDLE, ARMED and FAULTED. -/
def TrackState.atRest : TrackState → Bool
  | .idle | .armed _ | .faulted => true
  | .disabled | .playing _ | .stalled _ _ | .holding _ => false

/-- Whether a line stands at its rest level, if it is an output. -/
def Line.restful (l : Line) : Prop := ∀ driven, l.role = .output driven → driven = l.rest

/-- Groups are disjoint sets of OUTPUT lines, a page on a track touches lines of its group alone (R29), static outputs and the
lines of IDLE, ARMED and FAULTED tracks stand at their rest levels (R28, R121). -/
structure State.LinesHeld (s : State) : Prop where
  disjoint : ∀ t u : TrackId, t ≠ u → s.tracks[t].group &&& s.tracks[u].group = 0
  outputs : ∀ (t : TrackId) (l : LineId), s.tracks[t].group.getLsbD l = true → ∃ driven, s.lines[l].role = .output driven
  disabled : ∀ t : TrackId, s.tracks[t].state = .disabled → s.tracks[t].group = 0
  footprints : ∀ p : PageId, s.pages[p].state = .sealed ∨ s.pages[p].state = .queued ∨ s.pages[p].state = .active →
    s.pages[p].footprint = footprintOf s.pages[p].steps
  queuedFit : ∀ (t : TrackId) (p : PageId), p ∈ s.tracks[t].queue → within s.pages[p].footprint s.tracks[t].group = true
  activeFit : ∀ (t : TrackId) (p : PageId), s.tracks[t].activePage = some p →
    within s.pages[p].footprint s.tracks[t].group = true
  pulsesFit : ∀ (t : TrackId) (c : Playback) (e : PulseEnd), s.tracks[t].state.context = some c → e ∈ c.pulseEnds →
    within e.lines s.tracks[t].group = true
  staticRest : ∀ l : LineId, (∀ t : TrackId, s.tracks[t].group.getLsbD l = false) → s.lines[l].restful
  quietRest : ∀ (t : TrackId) (l : LineId), s.tracks[t].state.atRest = true → s.tracks[t].group.getLsbD l = true →
    s.lines[l].restful

/-! ## The closed session (R177, R181) -/

/-- While no session is open every track is IDLE or DISABLED, every trigger DISARMED, every page FREE, the event queue empty
(R177), no reply is cached (R171), no request awaits its reply (R173) and no read waits (R146). -/
structure State.Quiet (s : State) : Prop where
  tracks : ∀ t : TrackId, s.tracks[t].state = .idle ∨ s.tracks[t].state = .disabled
  triggers : ∀ k : TriggerId, s.triggers[k].latch = .disarmed
  pages : ∀ p : PageId, s.pages[p].state = .free
  events : s.events.queue = []
  cache : s.link.cache = []
  awaiting : s.link.awaiting = []
  waiting : s.journal.waiting = none

/-- A closed session is quiet, and the silence timer runs exactly while the state is OPEN and the keepalive timeout not 0
(R177, R181). -/
structure State.SessionLaw (s : State) : Prop where
  closedQuiet : s.isOpen = false → s.Quiet
  silence : s.session.silence.isSome = (s.isOpen && decide (s.session.keepalive ≠ 0))

/-! ## The journal (R133) -/

/-- The journal accounts for every sequence number once (R133): each record's seq plus its count is the next one's seq, the last
one's is the pending gap's first seq or the counter, the gap's first seq plus its count is the counter; a gap is held only while
the journal is full. -/
structure Journal.Accounts (j : Journal) : Prop where
  capacity : j.records.length ≤ Config.journalRecords
  chain : ∀ (i : Nat) (r q : Record), j.records[i]? = some r → j.records[i + 1]? = some q → r.seq + r.count = q.seq
  newest : ∀ r : Record, j.records.getLast? = some r → r.seq + r.count = (j.gap.map Gap.firstSeq).getD j.seq
  gapEnds : ∀ g : Gap, j.gap = some g → g.firstSeq + g.count = j.seq
  gapFull : j.gap.isSome = true → j.records.length = Config.journalRecords

end Sys2Proof.Machine
end

