-- ==== Sys2Proof/WellFormed.lean ====
section
/-! DEFINITION. Which commands a frame on the link can carry (R162, R187): the bounds that the operand types leave open. -/

namespace Sys2Proof

/-- A command that can stand for a frame: a Ping of at most 240 bytes (R182), an Append Steps of 1 to 19 records (R12), a
BAD_KIND_FRAME whose kind is no request kind and whose payload fits a frame (R162, R168). Every other command is well
formed for every value of its operands. -/
def Instr.wellFormed (i : Instr) : Bool :=
  match i with
  | .ping _ payload => decide (payload.length ≤ 240)
  | .appendSteps _ _ _ records => decide (1 ≤ records.length ∧ records.length ≤ 19)
  | .badKindFrame _ kind payload => !isRequestKind kind && decide (payload.length ≤ 240)
  | .identify _ | .openSession _ _ | .closeSession _ | .resetPart _ | .ackEvents _ _ | .replayEvents _ _ | .readTime _
  | .setTick _ _ | .setReference _ _ _ | .readReference _ | .configureLine _ _ _ _ _ _ | .readLines _
  | .openPage _ _ _ _ _ | .sealPage _ _ | .discardPage _ _ | .readPage _ _ _ | .readPool _
  | .configureTrack _ _ _ _ _ _ _ | .queuePage _ _ _ | .flushQueue _ _ | .startTrackAt _ _ _ _ _ _
  | .startTrackAfter _ _ _ _ _ _ | .startTrackOnTrigger _ _ _ _ _ _ | .startTrackAtEpoch _ _ _ _ _ _
  | .stopTrackAbort _ _ | .stopTrackEnd _ _ | .holdTrack _ _ | .releaseTrack _ _ | .readTrack _ _
  | .armTrigger _ _ _ _ _ _ | .disarmTrigger _ _ | .readTrigger _ _ | .readJournal _ _ _ _ _ | .setJournal _ _
  | .byteReceived _ | .gapTimeout | .keepaliveExpiry | .transmitNextFrame | .resetPower | .resetPin | .resetRequest
  | .startUpEnd | .inputTransition _ _ | .edgeAcceptance _ | .referencePulse | .missingPulseExpiry
  | .firingAgeDiscard _ | .gateExpiry _ | .gateResume _ | .journalWaitExpiry | .armedStartEffect _
  | .releaseStartEffect _ | .trackActionTick _ | .resetEnd _ => true

end Sys2Proof
end

