-- ==== Sys2Proof/Certificates/Slice0/Obligations.lean ====
section
/-! DEFINITION. The statements for the provers. Statements about a request speak of a state in which the dispatcher executes it
(`Executes`); `restartSilence` is what the good frame itself does (R164), `answered` the reply. Statements about a timed command
speak of the state at its moment, `afterPeriods d`. An equation of next states says the frame too: what it does not name is
unchanged. Each docstring ends with the log entries of the model's choices it rests on. -/

open Sys2Proof Sys2Proof.Machine

/-! ## The step and the queue -/

/-- A step takes the command at the front of the queue and executes it on the state with the queue's rest. -/
def Obligations.StepRunsTheFrontCommand : Prop :=
  ∀ (s : State) (c : Instr) (rest : List Instr),
    s.pending = c :: rest → step s = exec c { s with pending := rest }

/-- With no command waiting and nothing due, one base clock period passes: the timeline advances when the divider's count is
complete (R106); the silence timer, the waiting read's wait, the start-up interval and TXD run down by one period, and the
gap timer counts one more, up to 32 byte-times (R141, R160, R165, R181, R185). Within a reset nothing runs (R184). With
something due one of the commands due is executed; a command is due when it is scheduled for now, a reset's end with the
straps last given. Model choices: log entries 2, 4, 8, 9 and 25. -/
def Obligations.IdleStepLetsOnePeriodPass : Prop :=
  (∀ s : State, s.pending = [] → s.dueNow = [] → s.phase ≠ .reset → s.prescale < s.divider →
    step s = .next { s with
      timeline := if s.prescale + 1 = s.divider then s.timeline + 1 else s.timeline
      prescale := if s.prescale + 1 = s.divider then 0 else s.prescale + 1
      phase := match s.phase with
        | .startUp remaining => .startUp (remaining - 1)
        | other => other
      session := { s.session with silence := s.session.silence.map fun n => n - 1 }
      journal := { s.journal with waiting := s.journal.waiting.map fun w => { w with remaining := w.remaining - 1 } }
      link := { s.link with
        sinceByte := min (s.link.sinceByte + 1) (gapPeriods s.linkRate)
        txd := s.link.txd.map fun x => { x with remaining := x.remaining - 1 } } }) ∧
  (∀ s : State, s.pending = [] → s.dueNow = [] → s.phase = .reset → step s = .next s) ∧
  (∀ s : State, s.pending = [] → s.dueNow ≠ [] →
    ∃ c ∈ s.dueNow, step s = exec c { s with choices := s.choices + 1 }) ∧
  ∀ (s : State) (c : Instr),
    c ∈ s.dueNow ↔ s.due c = some 0 ∧ ∀ straps, c = .resetEnd straps → straps = s.straps

/-- No command touches the queue of waiting commands. The queue is the model's own, and that the resets, which return every
block of the part (R184), keep it is the model's choice. Model choices: log entries 19 and 20. -/
def Obligations.CommandsKeepTheQueue : Prop :=
  ∀ (c : Instr) (s t : State), exec c s = .next t → t.pending = s.pending

/-! ## Reset and start-up -/

/-- What a reset leaves (R26, R30, R98, R106, R111, R119, R147, R159, R176, R177). Model choices: log entry 7. -/
def Obligations.ResetLeavesTheStatedValues : Prop :=
  let s := State.reset
  (∀ p : PageId, s.pages[p].state = .free ∧ s.pages[p].owner = none) ∧ s.freePages = 64 ∧ s.freeSlots = 1024 ∧
    (∀ t : TrackId, s.tracks[t] = ⟨.disabled, 0, .holdLevels, false, false, [], false, false, none, false⟩) ∧
    (∀ k : TriggerId, s.triggers[k] = ⟨.disarmed, none⟩) ∧
    (∀ l : LineId, s.lines[l] = ⟨false, .unused⟩ ∧ s.pinOut l = none) ∧
    s.timeline = 0 ∧ s.divider = 1 ∧ s.reference = ⟨0, none, .free, 0, 0, none, 0, none⟩ ∧
    s.journal = ⟨[], 0, none, 0, false, none⟩ ∧ s.events = ⟨[], 1⟩ ∧ s.session = ⟨.closed, 0, 0, none⟩ ∧
    s.link.fifo = [] ∧ s.link.assembler = .hunt ∧ s.link.replies = [] ∧ s.link.awaiting = [] ∧ s.link.cache = [] ∧
    s.link.tallies = ⟨0, 0, 0, 0⟩

/-- The three resets return every block to its reset values and record their cause; a RESETn low within a POWER reset stays
recorded as POWER; RESET_REQUEST acts when the last stop bit of the Reset Part reply has been sent (R184; what stands outside
the blocks is kept by the model's choice, log entry 19). A reset ends: the straps give the link rate, the timeline starts
from 0, the start-up interval of 2 ms begins; at its end Hello is produced with the cause, the rate and the stamp (R160,
R184, R185). Model choices: log entries 3, 8 and 19. -/
def Obligations.ResetsReturnEveryBlock : Prop :=
  (∀ s : State,
    let cleared (cause : ResetCause) : State :=
      { State.reset with
        phase := .reset, cause := cause, straps := s.straps, linkRate := s.linkRate, pinLevels := s.pinLevels,
        choices := s.choices, pending := s.pending }
    exec .resetPower s = .next (cleared .power) ∧
      (s.phase = .reset ∧ s.cause = .power → exec .resetPin s = .next (cleared .power)) ∧
      (¬(s.phase = .reset ∧ s.cause = .power) → exec .resetPin s = .next (cleared .pin)) ∧
      ∀ d, s.dueAfter .resetRequest d → exec .resetRequest s = .next (cleared .request)) ∧
  (∀ (s : State) (straps : BitVec 2), s.phase = .reset →
    exec (.resetEnd straps) s =
      .next { s with straps := straps, linkRate := straps, timeline := 0, prescale := 0, phase := .startUp 200000 }) ∧
  ∀ (s : State) (d : Nat), s.dueAfter .startUpEnd d →
    let t := s.afterPeriods d
    exec .startUpEnd s =
      .next { t with
        phase := .running
        link := { t.link with notices := t.link.notices ++ [.hello s.cause s.linkRate t.timeline] } }

/-! ## Sessions -/

/-- Open Session in CLOSED opens the next session: number, keepalive and silence timer, event counter 1, tallies 0, notice
flag clear; a timeout outside its range is refused. Over an open session it ends that session first, the deferred requests
answered ABORTED before its own reply, whose flag is set (R173, R178). Model choices: log entries 1 and 12. -/
def Obligations.OpenSessionOpensTheNext : Prop :=
  (∀ (s : State) (tag : Byte) (keepalive : Word16), s.isOpen = false → s.Executes 0x02 tag →
    ((keepalive = 0 ∨ (10 ≤ keepalive.toNat ∧ keepalive.toNat ≤ 10000)) →
      let number : Word16 := if s.session.number = 0xFFFF then 1 else s.session.number + 1
      exec (.openSession tag keepalive) s =
        .next ({ s with
            session := ⟨.opened, number, keepalive,
              if keepalive = 0 then none else some (keepalive.toNat * 100000)⟩
            events := { s.events with next := 1 }
            link := { s.link with tallies := ⟨0, 0, 0, 0⟩ }
            journal := { s.journal with notice := false } }.answered 0x82 tag .ok
          (le16 number ++ flagByte [false] ++ le16 keepalive ++ le48 s.timeline ++ capacities)))) ∧
  (∀ (s : State) (tag : Byte) (keepalive : Word16), s.Executes 0x02 tag →
    ¬(keepalive = 0 ∨ (10 ≤ keepalive.toNat ∧ keepalive.toNat ≤ 10000)) →
      exec (.openSession tag keepalive) s = .next (s.restartSilence.answered 0x82 tag .badValue (zeros 25))) ∧
  ∀ (s : State) (tag : Byte) (keepalive : Word16), s.isOpen = true → s.Executes 0x02 tag →
    (keepalive = 0 ∨ (10 ≤ keepalive.toNat ∧ keepalive.toNat ≤ 10000)) →
    let u := s.restartSilence.endSession.answerDeferred
    let number : Word16 := if s.session.number = 0xFFFF then 1 else s.session.number + 1
    exec (.openSession tag keepalive) s =
      .next ({ u with
          session := ⟨.opened, number, keepalive, if keepalive = 0 then none else some (keepalive.toNat * 100000)⟩
          events := { u.events with next := 1 }
          link := { u.link with tallies := ⟨0, 0, 0, 0⟩ }
          journal := { u.journal with notice := false } }.answered 0x82 tag .ok
        (le16 number ++ flagByte [true] ++ le16 keepalive ++ le48 s.timeline ++ capacities))

/-- Close Session ends the session, answers the deferred requests, and replies OK with the number ended and now, the reply
not stored in the cache (R171, R179). The silence timer's expiry ends it too, discards the deferred requests, composed or
not, and produces Session Ended with the number and the stamp of the expiry (R173, R181). A deferred request that is answered
leaves those that wait, and its reply takes its place behind the replies already there (R172); answered ABORTED it carries
the track, if it is a start, and nothing else (R66, R73, R141). At a session end by request each of them is so answered, in
some order, and no deferred reply is stored any more (R173). Model choices: log entries 1, 3, 6 and 12. -/
def Obligations.SessionsEndByCloseOrSilence : Prop :=
  (∀ (s : State) (tag : Byte), s.isOpen = true → s.Executes 0x03 tag →
    exec (.closeSession tag) s =
      .next (s.restartSilence.endSession.answerDeferred.pushReply
        ⟨0x83, tag, .ok, 0, le16 s.session.number ++ le48 s.timeline⟩)) ∧
  (∀ (s : State) (d : Nat), s.dueAfter .keepaliveExpiry d →
    let t := s.afterPeriods d
    let u := t.endSession
    exec .keepaliveExpiry s =
      .next { u with link := { u.link with
        awaiting := []
        replies := u.link.replies.filter fun o => match o with
          | .immediate _ => true
          | .deferred _ _ => false
        notices := u.link.notices ++ [.sessionEnded s.session.number t.timeline] } }) ∧
  (∀ (s : State) (owner : Owner) (status : Status) (fields : List Byte),
    let kind : Byte := match owner with
      | .start _ => 0xB3
      | .stopEnd _ => 0xB4
      | .readJournal => 0xC8
    let u := s.compose owner status fields
    Link.Answered s.link u.link owner (fun tag => ⟨kind, tag, status, 0, fields⟩) ∧ u = { s with link := u.link }) ∧
  (∀ (s : State) (owner : Owner),
    let u := s.composeAborted owner
    Link.Answered s.link u.link owner (abortedReply owner) ∧ u = { s with link := u.link }) ∧
  ∀ s : State, (s.link.awaiting.map Deferred.owner).Nodup →
    ∃ order : List Deferred, order.Perm s.link.awaiting ∧
      s.answerDeferred = { s with
        choices := s.choices + 1
        link := { s.link with
          awaiting := []
          replies := (s.link.replies.map fun o => match o with
            | .immediate r => .immediate r
            | .deferred r _ => .deferred r false) ++ order.map fun d => .deferred (abortedReply d.owner d.tag) false } }

/-- What a session end does to every block, whatever its cause (R25, R82, R97, R118, R130, R146, R159, R176, R180). Each line
of the group of a track that is not DISABLED goes to its rest level, its role kept; every other line, static outputs and
inputs among them, is unchanged. A pending configuration is applied: policy and report options replaced, and the rest level
of each line of the group, to which the line then goes (R55). Nothing but what the blocks' effects name changes: the
keepalive timeout, the pins, the phase and the link rate stay. Model choices: log entry 16. -/
def Obligations.SessionEndQuietsThePart : Prop :=
  ∀ s : State,
    let t := s.endSession
    t = { s with
        session := { s.session with status := .closed, silence := none }
        pages := t.pages, tracks := t.tracks, triggers := t.triggers, lines := t.lines
        events := { s.events with queue := [] }
        journal := { s.journal with waiting := none }
        link := { s.link with cache := [] } } ∧
      (∀ p : PageId, t.pages[p] = Page.cleared) ∧ t.freePages = 64 ∧ t.freeSlots = 1024 ∧
      (∀ k : TriggerId, t.triggers[k].latch = .disarmed ∧ t.triggers[k].config = s.triggers[k].config) ∧
      (∀ u : TrackId, s.tracks[u].state = .disabled → t.tracks[u] = s.tracks[u]) ∧
      (∀ u : TrackId, s.tracks[u].state ≠ .disabled →
        t.tracks[u].state = .idle ∧ t.tracks[u].queue = [] ∧ t.tracks[u].group = s.tracks[u].group ∧
          t.tracks[u].hold = false ∧ t.tracks[u].stopRequest = false ∧ t.tracks[u].looping = false ∧
          t.tracks[u].pendingConfig = none ∧
          (s.tracks[u].pendingConfig = none →
            t.tracks[u].policy = s.tracks[u].policy ∧ t.tracks[u].reportStarted = s.tracks[u].reportStarted ∧
              t.tracks[u].reportRetired = s.tracks[u].reportRetired) ∧
          (∀ q : PendingConfig, s.tracks[u].pendingConfig = some q →
            t.tracks[u].policy = q.policy ∧ t.tracks[u].reportStarted = q.reportStarted ∧
              t.tracks[u].reportRetired = q.reportRetired ∧
              ∀ l : LineId, s.tracks[u].group.getLsbD l = true →
                (∀ v : TrackId, v ≠ u → s.tracks[v].group.getLsbD l = false) → t.lines[l].rest = q.rest.getLsbD l) ∧
          ∀ l : LineId, s.tracks[u].group.getLsbD l = true → t.lines[l].restful) ∧
      (∀ l : LineId, (∀ u : TrackId, s.tracks[u].state ≠ .disabled → s.tracks[u].group.getLsbD l = false) →
        t.lines[l] = s.lines[l]) ∧
      ∀ (u : TrackId) (l : LineId), s.tracks[u].state ≠ .disabled → s.tracks[u].group.getLsbD l = true →
        (∀ v : TrackId, v ≠ u → s.tracks[v].state ≠ .disabled → s.tracks[v].group.getLsbD l = false) →
        let rest := (s.tracks[u].pendingConfig.map fun q => q.rest.getLsbD l).getD s.lines[l].rest
        (∀ driven, s.lines[l].role = .output driven → t.lines[l] = ⟨rest, .output rest⟩) ∧
          ((∀ driven, s.lines[l].role ≠ .output driven) → t.lines[l] = { s.lines[l] with rest := rest })

/-- Identify and Ping, in both session states, change nothing: Identify reports the part, its capacities, the link rate, the
cause of the last reset, the session and now (R183); Ping echoes its payload up to its first 239 bytes (R182). Model choices:
log entry 1. -/
def Obligations.IdentifyAndPingChangeNothing : Prop :=
  (∀ (s : State) (tag : Byte), s.Executes 0x01 tag →
    exec (.identify tag) s =
      .next (s.restartSilence.answered 0x81 tag .ok
        ([(0x16 : Byte), 0x08, 0x01] ++ [(16 : Byte), 8, 64, 0, 4, 128, 8, 4, 0, 1, 32, 4, 8, 240] ++ [s.linkRate.setWidth 8] ++
          u8 (match s.cause with
            | .power => 0
            | .pin => 1
            | .request => 2) ++
          u8 (match s.session.status with
            | .closed => 0
            | .opened => 1) ++
          le16 s.session.number ++ le16 s.session.keepalive ++ le48 s.timeline))) ∧
  ∀ (s : State) (tag : Byte) (payload : List Byte), s.Executes 0x04 tag → payload.length ≤ 240 →
    exec (.ping tag payload) s = .next (s.restartSilence.answered 0x84 tag .ok (payload.take 239))

/-- Reset Part replies OK; from then on the dispatcher takes no frame; when the arbiter takes its reply, the reply leaves the
transmit buffer and is given to TXD, and no further frame is taken (R167, R174, R184). Model choices: log entries 1, 3, 9 and
26. -/
def Obligations.ResetPartWaitsForItsReply : Prop :=
  (∀ (s : State) (tag : Byte), s.Executes 0x05 tag →
    exec (.resetPart tag) s =
      .next ({ s.restartSilence with resetPart := .executed }.answered 0x85 tag .ok [])) ∧
  (∀ s : State, s.resetPart ≠ .none → s.canTake = false) ∧
  ∀ (s : State) (d : Nat) (tag : Byte) (rest : List Outgoing), s.dueAfter .transmitNextFrame d →
    s.resetPart = .executed → s.link.notices = [] → s.link.replies = .immediate ⟨0x85, tag, .ok, 0, []⟩ :: rest →
    let w := s.afterPeriods d
    let t := ({ w with link := { w.link with replies := rest }, resetPart := .replyTaken }).send ⟨0x85, tag, [0]⟩
    exec .transmitNextFrame s = .next t ∧ t.hasFrame = false

/-! ## The link -/

/-- Steps 1 to 5 of R168: a kind that is no request kind, a length that does not fit, a request outside a session, a cached
tag, a tag in flight; each answered without executing anything (R169, R171). The dispatcher takes a frame while the part is
at work, no Reset Part has been executed and fewer than 4 immediate replies wait (R167, R185). A frame that arrives while the
part is not at work is discarded; one that the dispatcher does not take at once enters the FIFO byte by byte behind the bytes
that stand there, and waits there while the transmit buffer is full (R161, R167). Model choices: log entries 1 and 27. -/
def Obligations.FramesAnsweredWithoutExecution : Prop :=
  (∀ (s : State) (i : Instr) (f : Frame), i.frame = some f → isRequestKind f.kind = true → s.takesAtOnce = true →
    let b := s.restartSilence
    let statusAlone (status : Status) : Reply := ⟨f.kind + 0x80, f.tag, status, 0, []⟩
    (lengthFits f.kind f.payload.length = false → exec i s = .next (b.pushReply (statusAlone .badLength))) ∧
    (lengthFits f.kind f.payload.length = true →
      (s.isOpen = false → f.kind ∉ [(0x01 : Byte), 0x02, 0x04, 0x05] →
        exec i s = .next (b.pushReply (statusAlone .noSession))) ∧
      ((s.isOpen = true ∨ f.kind ∈ [(0x01 : Byte), 0x02, 0x04, 0x05]) → f.tag ≠ 0 →
        (∀ r, s.cached f.tag = some r → exec i s = .next (b.pushReply r)) ∧
        (s.cached f.tag = none → s.inFlight f.tag = true →
          exec i s = .next (b.pushReply (statusAlone .inProgress)))))) ∧
  (∀ (s : State) (tag kind : Byte) (payload : List Byte), s.takesAtOnce = true → isRequestKind kind = false →
    exec (.badKindFrame tag kind payload) s =
      .next (s.restartSilence.pushReply ⟨0xFF, tag, .badKind, 0, [kind]⟩)) ∧
  (∀ s : State,
    (s.canTake = true ↔ s.phase = .running ∧ s.resetPart = .none ∧
      (s.link.replies.filter fun o => match o with
        | .immediate _ => true
        | .deferred _ _ => false).length < 4) ∧
    (s.takesAtOnce = true ↔ s.canTake = true ∧ s.link.fifo = [] ∧ s.link.assembler = .hunt)) ∧
  ∀ (s : State) (i : Instr) (f : Frame), i.frame = some f →
    let stands (assembler : Assembler) : State := { s with link := { s.link with
      fifo := s.link.fifo ++ f.bytes, assembler := assembler, dropping := false, sinceByte := 0 } }
    (s.phase ≠ .running → exec i s = .next s) ∧
    (s.phase = .running → s.takesAtOnce = false → exec i s = .next (f.bytes.foldl State.receiveByte s)) ∧
    (s.phase = .running → s.canTake = false → s.link.assembler = .waiting →
      s.link.fifo.length + f.bytes.length ≤ 1024 → exec i s = .next (stands .waiting)) ∧
    (s.phase = .running → s.canTake = false → s.link.assembler = .hunt → s.link.fifo = [] → f.payload.length ≤ 240 →
      exec i s = .next (stands .waiting).restartSilence)

/-- Every well-formed command that is a frame is spelled by its frame: reading its payload gives the command back, and the
length fits its kind (R186, R187, R189). -/
def Obligations.FramesSpellTheirCommands : Prop :=
  ∀ (i : Instr) (f : Frame), i.wellFormed = true → i.frame = some f →
    f.command = some i ∧ f.payload.length ≤ 240 ∧ (isRequestKind f.kind = true → lengthFits f.kind f.payload.length = true)

/-- The bytes of a frame, received one by one by an empty assembler, restart the silence timer and reach the dispatcher as
that frame, and nothing of them is left in the FIFO (R161 to R164, R167). A restart sets the silence timer to the keepalive
timeout while a session is open, stops it for a timeout of 0, and does nothing while none is open (R181). Model choices: log
entry 11. -/
def Obligations.FrameBytesReachTheDispatcher : Prop :=
  (∀ (s : State) (f : Frame), s.canTake = true → s.link.fifo = [] → s.link.assembler = .hunt → f.payload.length ≤ 240 →
    f.bytes.foldl State.receiveByte s =
      ({ s with link := { s.link with dropping := false, sinceByte := 0 } }).restartSilence.dispatch f (frameOwner f)) ∧
  ∀ s : State,
    (s.session.status = .opened → s.session.keepalive = 0 →
      s.restartSilence = { s with session := { s.session with silence := none } }) ∧
    (s.session.status = .opened → s.session.keepalive ≠ 0 →
      s.restartSilence =
        { s with session := { s.session with silence := some (s.session.keepalive.toNat * 100000) } }) ∧
    (s.session.status = .closed → s.restartSilence = s)

/-- A byte received on RXD: discarded before the part is at work; dropped at a full FIFO, with an OVERRUN fault for the first
of a run; passed over in HUNT unless it is A5h, which is taken as a SYNC (R161, R163, R185). A rejected LEN counts a LENGTH
fault and both bytes are released; a frame whose CRC fails counts a CRC fault and its SYNC alone is released (R163, R164). A
link fault of each kind raises its own tally, up to 65535 (R166). While a session is open and no Link Fault entry is held,
Link Fault with the four tallies is queued: stored, the tallies then 0; or counted as lost, in a new Events Lost entry or the
one held, the tallies kept. In a closed session, or with a Link Fault entry held, nothing is queued (R157). -/
def Obligations.ReceivedBytesAreTakenOrDropped : Prop :=
  (∀ (s : State) (b : Byte),
    (s.phase ≠ .running → exec (.byteReceived b) s = .next s) ∧
    (s.phase = .running →
      (1024 ≤ s.link.fifo.length →
        let t := { s with link := { s.link with dropping := true, sinceByte := 0 } }
        exec (.byteReceived b) s = .next (if s.link.dropping then t else t.linkFault .overrun)) ∧
      (s.link.fifo = [] → s.link.assembler = .hunt →
        exec (.byteReceived b) s =
          .next { s with link := { s.link with
            fifo := if b = 0xA5 then [0xA5] else []
            assembler := if b = 0xA5 then .length else .hunt
            dropping := false
            sinceByte := 0 } }))) ∧
  (∀ (n : Nat) (s : State) (sync len : Byte) (rest : List Byte), s.link.assembler = .length →
    s.link.fifo = sync :: len :: rest → (len.toNat < 2 ∨ 242 < len.toNat) →
    State.pumpFor (n + 1) s = State.pumpFor n ((s.assemble rest .hunt).linkFault .length)) ∧
  (∀ (n : Nat) (s : State) (sync len : Byte) (rest : List Byte), s.link.assembler = .body →
    s.link.fifo = sync :: len :: rest → len.toNat + 2 ≤ rest.length →
    (rest.drop len.toNat).take 2 ≠ le16 (crc16 (len :: rest.take len.toNat)) →
    State.pumpFor (n + 1) s = State.pumpFor n ((s.assemble (len :: rest) .hunt).linkFault .crc)) ∧
  ∀ (s : State) (kind : LinkFaultKind),
    let x := s.link.tallies
    let u := s.events
    let counted : Tallies := match kind with
      | .crc => { x with crc := min (x.crc + 1) 65535 }
      | .length => { x with length := min (x.length + 1) 65535 }
      | .timeout => { x with timeout := min (x.timeout + 1) 65535 }
      | .overrun => { x with overrun := min (x.overrun + 1) 65535 }
    let becomes (tallies : Tallies) (events : EventUnit) : Prop :=
      s.linkFault kind = { s with link := { s.link with tallies := tallies }, events := events }
    (s.isOpen = false ∨ (∃ e ∈ u.queue, e.isLinkFault = true) → becomes counted u) ∧
    (s.isOpen = true → (∀ e ∈ u.queue, e.isLinkFault = false) →
      ((∀ e ∈ u.queue, e.isLost = false) → u.queue.length < 31 →
        becomes ⟨0, 0, 0, 0⟩ ⟨u.queue ++ [⟨u.next, .linkFault counted, false⟩], u.next + 1⟩) ∧
      ((∀ e ∈ u.queue, e.isLost = false) → 31 ≤ u.queue.length →
        becomes counted ⟨u.queue ++ [⟨u.next, .eventsLost 1, false⟩], u.next + 1⟩) ∧
      ∀ ordinary seq n sent, (∀ e ∈ ordinary, e.isLost = false) → u.queue = ordinary ++ [⟨seq, .eventsLost n, sent⟩] →
        (n < 65535 → becomes counted ⟨ordinary ++ [⟨seq, .eventsLost (n + 1), false⟩], u.next⟩) ∧
        (65535 ≤ n → becomes counted u))

/-- The gap timer's expiry discards the partial frame, returns the assembler to HUNT and counts a TIMEOUT fault as a link
fault is counted: in the tally while no session is open or a Link Fault entry is held, in a Link Fault entry, the tallies
then 0, while one is open with room and no such entry held (R157, R165, R166). Model choices: log entries 3 and 25. -/
def Obligations.GapTimeoutDiscardsThePartialFrame : Prop :=
  ∀ (s : State) (d : Nat), s.dueAfter .gapTimeout d →
    let t := s.afterPeriods d
    let counted : Tallies := { s.link.tallies with timeout := min (s.link.tallies.timeout + 1) 65535 }
    exec .gapTimeout s = .next (({ t with link := { t.link with fifo := [], assembler := .hunt } }).linkFault .timeout) ∧
    (s.isOpen = false →
      exec .gapTimeout s =
        .next { t with link := { t.link with fifo := [], assembler := .hunt, tallies := counted } }) ∧
    (s.isOpen = true → (∃ e ∈ s.events.queue, e.isLinkFault = true) →
      exec .gapTimeout s =
        .next { t with link := { t.link with fifo := [], assembler := .hunt, tallies := counted } }) ∧
    (s.isOpen = true → (∀ e ∈ s.events.queue, e.isLinkFault = false ∧ e.isLost = false) → s.events.queue.length < 31 →
      exec .gapTimeout s =
        .next { t with
          link := { t.link with fifo := [], assembler := .hunt, tallies := ⟨0, 0, 0, 0⟩ }
          events := ⟨s.events.queue ++ [⟨s.events.next, .linkFault counted, false⟩], s.events.next + 1⟩ })

/-- The arbiter takes a notice first, else the oldest reply, else the oldest unsent event; a deferred reply of the open
session is stored in the cache, an event's sent flag is set (R153, R172, R174). An immediate reply taken frees a place, and
the dispatcher takes the frame that waits, if one does, in that step, which R167 and R174 permit and the model chose; so it
chose the order among notices. A reply produced before that of an executed Reset Part is taken like any other (R184). What
each frame holds: an event its seq, its code and its fields, a notice its fields, a reply its status byte, with a gate set in
bits 4 to 7, and its fields (R169, R186, R188, R191). TXD is given SYNC, LEN, KIND, TAG, the payload and the CRC, and ten
bits for each byte (R160, R162). Model choices: log entries 3, 9, 11, 25 and 28. -/
def Obligations.ArbiterTakesNoticesRepliesEvents : Prop :=
  (∀ (s : State) (d : Nat), s.dueAfter .transmitNextFrame d →
    let t := s.afterPeriods d
    (∀ n rest, s.link.notices = n :: rest →
      exec .transmitNextFrame s = .next (({ t with link := { t.link with notices := rest } }).send n.frame)) ∧
    (∀ r keep rest, s.link.notices = [] → s.link.replies = .deferred r keep :: rest →
      let u := ({ t with link := { t.link with replies := rest } }).send r.frame
      exec .transmitNextFrame s = .next (if keep = true then u.cacheReply r else u)) ∧
    (∀ r rest, s.link.notices = [] → s.link.replies = .immediate r :: rest →
      ¬(s.resetPart = .executed ∧ r.kind = 0x85 ∧ r.status = .ok) →
      exec .transmitNextFrame s =
        .next (({ t with link := { t.link with replies := rest } }).send r.frame).pump) ∧
    (∀ before e after, s.link.notices = [] → s.link.replies = [] → s.events.queue = before ++ e :: after →
      (∀ x ∈ before, x.sent = true) → e.sent = false →
      exec .transmitNextFrame s =
        .next (({ t with events := { t.events with
          queue := before ++ { e with sent := true } :: after } }).send e.frame))) ∧
  (∀ e : Entry, e.frame = ⟨0xE0, 0, le16 e.seq ++ (match e.event with
    | .trackStarted t p start late => u8 0x01 ++ u8 t.val ++ u8 p.val ++ le48 start ++ u8 late.toNat
    | .pageRetired t p stamp outcome n => u8 0x02 ++ u8 t.val ++ u8 p.val ++ le48 stamp ++ u8 outcome.code ++ u32 n
    | .trackHeld t stamp => u8 0x03 ++ u8 t.val ++ le48 stamp
    | .trackStopped t stamp reason => u8 0x04 ++ u8 t.val ++ le48 stamp ++ u8 reason.code
    | .trackUnderrun t policy stamp => u8 0x05 ++ u8 t.val ++ u8 policy.code ++ le48 stamp
    | .trackFault t reason stamp => u8 0x06 ++ u8 t.val ++ u8 reason.code ++ le48 stamp
    | .startCancelled t reason => u8 0x07 ++ u8 t.val ++ u8 reason.code
    | .mark t p index code stamp => u8 0x08 ++ u8 t.val ++ u8 p.val ++ u8 index ++ le16 code ++ le48 stamp
    | .gateReleased t k outcome stall => u8 0x09 ++ u8 t.val ++ u8 k.val ++ u8 outcome.code ++ le48 stall
    | .triggerFired k l stamp released => u8 0x0A ++ u8 k.val ++ u8 l.val ++ le48 stamp ++ u8 released
    | .triggerOverrun k stamp => u8 0x0B ++ u8 k.val ++ le48 stamp
    | .referenceStatus status epoch stamp => u8 0x0C ++ u8 status.code ++ le32 epoch ++ le48 stamp
    | .journalNotice held => u8 0x0D ++ u16 held
    | .linkFault x => u8 0x0E ++ u16 x.crc ++ u16 x.length ++ u16 x.timeout ++ u16 x.overrun
    | .eventsLost count => u8 0x0F ++ u16 count)⟩) ∧
  ([RetireOutcome.complete, .aborted, .faulted].map RetireOutcome.code = [0, 1, 2] ∧
    [StopReason.atEnd, .abort, .underrun].map StopReason.code = [0, 1, 2] ∧
    [Policy.holdLevels, .rest, .fault, .repeatLast].map Policy.code = [0, 1, 2, 3] ∧
    [FaultReason.underrun, .gateTimeout].map FaultReason.code = [0, 1] ∧
    [CancelReason.flushed, .stopped, .disarmed, .reference].map CancelReason.code = [0, 1, 2, 3] ∧
    [GateOutcome.fired, .timeout].map GateOutcome.code = [0, 1] ∧
    [RefStatus.free, .seeking, .locked].map RefStatus.code = [0, 1, 2] ∧
    [ResetCause.power, .pin, .request].map ResetCause.code = [0, 1, 2]) ∧
  (∀ (cause : ResetCause) (rate : BitVec 2) (session : Word16) (stamp : Stamp),
    (Notice.hello cause rate stamp).frame =
        ⟨0xF0, 0, [0x16, 0x08, 0x01] ++ u8 cause.code ++ u8 rate.toNat ++ le48 stamp⟩ ∧
      (Notice.sessionEnded session stamp).frame = ⟨0xF1, 0, [1] ++ le16 session ++ le48 stamp⟩) ∧
  (∀ r : Reply,
    let code : Nat := match r.status with
      | .ok => 0x00 | .badKind => 0x01 | .badLength => 0x02 | .badValue => 0x03 | .noSession => 0x04 | .busy => 0x05
      | .empty => 0x06 | .noSpace => 0x07 | .notFound => 0x08 | .footprint => 0x09 | .tooLate => 0x0A
      | .inProgress => 0x0B | .windowFull => 0x0C | .aborted => 0x0D
    r.frame = ⟨r.kind, r.tag, BitVec.ofNat 8 (code + 16 * r.gates.toNat) :: r.fields⟩) ∧
  ∀ (s : State) (f : Frame),
    let body : List Byte := u8 (f.payload.length + 2) ++ [f.kind, f.tag] ++ f.payload
    let bits : Nat := match s.linkRate.toNat with
      | 0 => 115200
      | 1 => 460800
      | 2 => 1000000
      | _ => 3000000
    f.bytes = [0xA5] ++ body ++ le16 (crc16 body) ∧
      s.send f = { s with link := { s.link with
        txd := some ⟨f.bytes, (f.bytes.length * 10 * 100000000 + (bits - 1)) / bits⟩ } }

/-- A reply stored in the cache: never with tag 0 or WINDOW_FULL or outside a session; the oldest of 8 entries leaves. The
cache gives the reply of a tag, if it holds one (R171). An immediate reply takes its place behind the replies already there
(R167, R174). A tag is in flight while a request with it awaits its deferred reply, or that reply is not yet taken, and each
of these holds a deferred request slot (R172). Nothing else changes. -/
def Obligations.RepliesEnterTheCache : Prop :=
  ∀ (s : State) (r : Reply),
    (r.tag = 0 ∨ r.status = .windowFull ∨ s.isOpen = false → s.cacheReply r = s) ∧
    (r.tag ≠ 0 → r.status ≠ .windowFull → s.isOpen = true → s.link.cache.length = 8 →
      s.cacheReply r = { s with link := { s.link with cache := s.link.cache.drop 1 ++ [r] } }) ∧
    (r.tag ≠ 0 → r.status ≠ .windowFull → s.isOpen = true → s.link.cache.length < 8 →
      s.cacheReply r = { s with link := { s.link with cache := s.link.cache ++ [r] } }) ∧
    s.pushReply r = { s with link := { s.link with replies := s.link.replies ++ [.immediate r] } } ∧
    (∀ tag : Byte,
      (s.cached tag = none ↔ ∀ q ∈ s.link.cache, q.tag ≠ tag) ∧
      (∀ q, s.cached tag = some q → q ∈ s.link.cache ∧ q.tag = tag) ∧
      (s.inFlight tag = true ↔
        (∃ d ∈ s.link.awaiting, d.tag = tag) ∨ ∃ q keep, .deferred q keep ∈ s.link.replies ∧ q.tag = tag)) ∧
    s.heldSlots = s.link.awaiting.length + (s.link.replies.filter fun o => match o with
      | .immediate _ => false
      | .deferred _ _ => true).length

/-! ## Pages -/

/-- Open Page takes the lowest-numbered FREE page into OPEN; with no FREE page it is refused NO_SPACE, with a period below
16, an unknown flag or a nonzero reserved byte BAD_VALUE (R11, R168, R186). Model choices: log entries 1, 12 and 18. -/
def Obligations.OpenPageTakesTheLowestFreePage : Prop :=
  ∀ (s : State) (tag : Byte) (period : Word32) (repeats : Word16) (flags reserved : Byte),
    s.isOpen = true → s.Executes 0x20 tag →
    let b := s.restartSilence
    (reserved ≠ 0 ∨ period.toNat < 16 ∨ 4 ≤ flags.toNat →
      exec (.openPage tag period repeats flags reserved) s =
        .next (b.answered 0xA0 tag .badValue (u8 0 ++ u8 s.freePages ++ u16 s.freeSlots))) ∧
    (reserved = 0 → 16 ≤ period.toNat → flags.toNat < 4 →
      ((∀ p : PageId, s.pages[p].state ≠ .free) →
        exec (.openPage tag period repeats flags reserved) s =
          .next (b.answered 0xA0 tag .noSpace (u8 0 ++ u8 s.freePages ++ u16 s.freeSlots))) ∧
      ∀ p : PageId, s.pages[p].state = .free → (∀ q : PageId, q < p → s.pages[q].state ≠ .free) →
        let opened : Page := ⟨.opened, period, repeats, flags.getLsbD 0, flags.getLsbD 1, [], 0, 0, none⟩
        let t := { b with pages := s.pages.set p opened }
        exec (.openPage tag period repeats flags reserved) s =
          .next (t.answered 0xA0 tag .ok (u8 p.val ++ u8 t.freePages ++ u16 t.freeSlots)))

/-- Append Steps adds all of a request's steps to an OPEN page, in request order, or none: a request with an invalid step is
refused with its index, one that the page or the store cannot hold is refused NO_SPACE, one for a page that is not OPEN is
refused NOT_FOUND or BUSY (R12 to R14). A reserved byte that is not 0 is refused BAD_VALUE with the page, its step count and
the free slots, the fields being the model's choice (R168, R186). Model choices: log entries 1, 12 and 18. -/
def Obligations.AppendStepsTakesAllOrNone : Prop :=
  ∀ (s : State) (tag : Byte) (p : PageId) (records : List StepRecord),
    s.isOpen = true → s.Executes 0x21 tag → 1 ≤ records.length → records.length ≤ 19 →
    let b := s.restartSilence
    let page := s.pages[p]
    let before := (page.steps.getLast?.map fun st => st.offset.toNat).getD 0
    let run (t : State) (status : Status) (count slots invalid : Nat) : Prop :=
      exec (.appendSteps tag (BitVec.ofNat 8 p.val) 0 records) s =
        .next (t.answered 0xA1 tag status (u8 p.val ++ u8 count ++ u16 slots ++ u8 invalid))
    (∀ reserved : Byte, reserved ≠ 0 →
      exec (.appendSteps tag (BitVec.ofNat 8 p.val) reserved records) s =
        .next (b.answered 0xA1 tag .badValue (u8 p.val ++ u8 page.steps.length ++ u16 s.freeSlots ++ u8 0))) ∧
    (page.state = .free → run b .notFound page.steps.length s.freeSlots 0) ∧
    (page.state = .sealed ∨ page.state = .queued ∨ page.state = .active → run b .busy page.steps.length s.freeSlots 0) ∧
    (∀ i, page.state = .opened → checkSteps page.period 0 before records = .error i →
      run b .badValue page.steps.length s.freeSlots i) ∧
    ∀ steps, page.state = .opened → checkSteps page.period 0 before records = .ok steps →
      (128 < page.steps.length + steps.length ∨ s.freeSlots < steps.length →
        run b .noSpace page.steps.length s.freeSlots 0) ∧
      (page.steps.length + steps.length ≤ 128 → steps.length ≤ s.freeSlots →
        let t := { b with pages := s.pages.set p { page with steps := page.steps ++ steps } }
        run t .ok (page.steps.length + steps.length) t.freeSlots 0)

/-- Which records of a step are valid by themselves, and the step each gives: by its kind, the fields and bits its kind does
not use being 0, the line set of a DRIVE, TOGGLE or PULSE not empty and the levels of a DRIVE within it, the width of a PULSE
not 0, the trigger of a GATE one of the four (R3 to R8, R13, R189). What checkSteps accepts is one step for each record, in
order, with every offset below the period and none below the offset before it, and no pulse ending past the period; it gives
the index of the first record at which that fails (R6, R13, R14); and a step read from a record is returned as that record,
byte for byte (R18, R189). -/
def Obligations.StepsAreCheckedAndKept : Prop :=
  (∀ (r : StepRecord) (st : Step),
    stepContents r = some st ↔
      (r.kind = 1 ∧ r.flags = 0 ∧ r.lines ≠ 0 ∧
        ∃ levels : LineSet, r.argument = levels.setWidth 32 ∧ levels &&& ~~~r.lines = 0 ∧
          st = .drive r.offset r.lines levels) ∨
      (r.kind = 2 ∧ r.flags = 0 ∧ r.lines ≠ 0 ∧ r.argument = 0 ∧ st = .toggle r.offset r.lines) ∨
      (r.kind = 3 ∧ r.lines ≠ 0 ∧ r.argument ≠ 0 ∧
        ∃ level : Bool, r.flags = (BitVec.ofBool level).setWidth 8 ∧ st = .pulse r.offset r.lines level r.argument) ∨
      (r.kind = 4 ∧ r.flags = 0 ∧ r.lines = 0 ∧
        ∃ code : Word16, r.argument = code.setWidth 32 ∧ st = .mark r.offset code) ∨
      (r.kind = 5 ∧ r.lines = 0 ∧
        ∃ (k : TriggerId) (action : GateAction) (report : Bool),
          r.flags = BitVec.ofNat 8 (k.val + (if action = .fault then 16 else 0) + (if report then 32 else 0)) ∧
            st = .gate r.offset k r.argument action report)) ∧
  (∀ (period : Word32) (index before : Nat) (records : List StepRecord) (steps : List Step),
    checkSteps period index before records = .ok steps ↔
      records.map stepContents = steps.map some ∧
        (before :: steps.map fun st => st.offset.toNat).Pairwise (· ≤ ·) ∧
        ∀ st ∈ steps, st.offset.toNat < period.toNat ∧
          ∀ o l v w, st = .pulse o l v w → o.toNat + w.toNat ≤ period.toNat) ∧
  (∀ (period : Word32) (index before : Nat) (records : List StepRecord) (j : Nat),
    checkSteps period index before records = .error j ↔
      ∃ i, i < records.length ∧ j = index + i ∧
        (∃ steps, checkSteps period index before (records.take i) = .ok steps) ∧
        ∀ steps, checkSteps period index before (records.take (i + 1)) ≠ .ok steps) ∧
  ∀ (r : StepRecord) (st : Step), stepContents r = some st → st.record = r ∧ st.record.bytes = r.bytes

/-- Seal Page moves an OPEN page (a FREE one is refused NOT_FOUND, another BUSY) to SEALED with its footprint and gate set:
the lines its steps touch, the triggers its gates name (R15, R16). Discard Page clears an OPEN or SEALED page and returns its
slots; a QUEUED or ACTIVE page is refused BUSY, a FREE one NOT_FOUND (R17). Model choices: log entries 1 and 12. -/
def Obligations.SealAndDiscardPages : Prop :=
  ((∀ (s : State) (tag : Byte) (p : PageId), s.isOpen = true → s.Executes 0x22 tag →
    (s.pages[p].state = .free →
      exec (.sealPage tag (BitVec.ofNat 8 p.val)) s =
        .next (s.restartSilence.answered 0xA2 tag .notFound (zeros 5))) ∧
    (s.pages[p].state = .sealed ∨ s.pages[p].state = .queued ∨ s.pages[p].state = .active →
      exec (.sealPage tag (BitVec.ofNat 8 p.val)) s = .next (s.restartSilence.answered 0xA2 tag .busy (zeros 5))) ∧
    (s.pages[p].state = .opened →
    let page := s.pages[p]
    let sealed : Page :=
      { page with state := .sealed, footprint := footprintOf page.steps, gateSet := gateSetOf page.steps }
    let t := { s.restartSilence with pages := s.pages.set p sealed }
    exec (.sealPage tag (BitVec.ofNat 8 p.val)) s =
      .next (t.answered 0xA2 tag .ok
        (u8 p.val ++ u8 page.steps.length ++ le16 (footprintOf page.steps) ++ [(gateSetOf page.steps).setWidth 8])))) ∧
  ∀ steps : List Step,
    (∀ l : LineId, (footprintOf steps).getLsbD l = true ↔ ∃ st ∈ steps, st.lines.getLsbD l = true) ∧
    ∀ k : TriggerId, (gateSetOf steps).getLsbD k = true ↔ ∃ st ∈ steps, ∃ o t a r, st = .gate o k t a r) ∧
  ∀ (s : State) (tag : Byte) (p : PageId), s.isOpen = true → s.Executes 0x23 tag →
    let b := s.restartSilence
    let t := { b with pages := s.pages.set p ⟨.free, 0, 0, false, false, [], 0, 0, none⟩ }
    (s.pages[p].state = .opened ∨ s.pages[p].state = .sealed →
      exec (.discardPage tag (BitVec.ofNat 8 p.val)) s =
        .next (t.answered 0xA3 tag .ok (u8 s.pages[p].steps.length ++ u8 t.freePages ++ u16 t.freeSlots))) ∧
    (s.pages[p].state = .queued ∨ s.pages[p].state = .active →
      exec (.discardPage tag (BitVec.ofNat 8 p.val)) s = .next (b.answered 0xA3 tag .busy (zeros 4))) ∧
    (s.pages[p].state = .free →
      exec (.discardPage tag (BitVec.ofNat 8 p.val)) s = .next (b.answered 0xA3 tag .notFound (zeros 4)))

/-- Read Page and Read Pool change nothing and report the record, up to 19 steps from an index, the counts and every page's
state and owner (R18, R19, R188). Model choices: log entries 1 and 12. -/
def Obligations.PageReadsReportThePool : Prop :=
  ∀ (s : State) (tag : Byte), s.isOpen = true →
    let b := s.restartSilence
    let stateAndOwner (page : Page) : Nat :=
      match page.state with
      | .free => 0
      | .opened => 1
      | .sealed => 2
      | .queued => 3 + 8 * (page.owner.map Fin.val).getD 0
      | .active => 4 + 8 * (page.owner.map Fin.val).getD 0
    (s.Executes 0x24 tag → ∀ (p : PageId) (first : Byte), 127 < first.toNat →
      exec (.readPage tag (BitVec.ofNat 8 p.val) first) s = .next (b.answered 0xA4 tag .badValue (zeros 11))) ∧
    (s.Executes 0x24 tag → ∀ (p : PageId) (first : Byte), first.toNat ≤ 127 →
      let page := s.pages[p]
      exec (.readPage tag (BitVec.ofNat 8 p.val) first) s =
        .next (b.answered 0xA4 tag .ok
          (u8 (p.val + (if page.retain then 64 else 0) + (if page.holdAfter then 128 else 0)) ++
            u8 (stateAndOwner page) ++ u8 page.steps.length ++ le16 page.footprint ++ le32 page.period ++
            le16 page.repeats ++ ((page.steps.drop first.toNat).take 19).flatMap fun st => st.record.bytes)
          page.gateSet)) ∧
    (s.Executes 0x25 tag →
      exec (.readPool tag) s =
        .next (b.answered 0xA5 tag .ok
          (u8 s.freePages ++ u16 s.freeSlots ++ s.pages.toList.flatMap fun page => u8 (stateAndOwner page))))

/-! ## Tracks: configuration and queue -/

/-- An accepted Configure Track with enable set, by the track's state: a DISABLED track becomes IDLE with the group, policy
and report options given, an IDLE or FAULTED track takes them, a line that leaves its group going to rest, and every line of
the group takes its rest level and is driven to it; in ARMED the group is kept and the same happens; in HOLDING the rest
levels are stored and the lines stay; in PLAYING and STALLED it becomes the pending configuration, replacing any held, and
nothing else changes (R51 to R54, R56). Model choices: log entries 1 and 12. -/
def Obligations.ConfigureTrackFormsTheGroup : Prop :=
  ∀ (s : State) (tag : Byte) (t : TrackId) (enable policy options : Byte) (group rest : LineSet) (p : Policy),
    s.isOpen = true → s.Executes 0x30 tag → enable ≠ 0 → Policy.ofByte policy = some p → options.toNat < 4 →
    group ≠ 0 → rest &&& ~~~group = 0 →
    (∀ l : LineId, group.getLsbD l = true → ∃ driven, s.lines[l].role = .output driven) →
    (∀ u : TrackId, u ≠ t → s.tracks[u].group &&& group = 0) →
    (∀ q ∈ s.tracks[t].queue, s.pages[q].footprint &&& ~~~group = 0) →
    let tr := s.tracks[t]
    let run := exec (.configureTrack tag (BitVec.ofNat 8 t.val) enable policy options group rest) s
    let taken (st : TrackState) : Track :=
      { tr with
        state := st, group := group, policy := p, reportStarted := options.getLsbD 0, reportRetired := options.getLsbD 1 }
    let becomes (u : State) (x : Track) (waits : Bool) : Prop :=
      run = .next (u.answered 0xB0 tag .ok (u8 t.val ++ u8 x.state.code ++ u8 waits.toNat)) ∧
        u = { s.restartSilence with tracks := s.tracks.set t x, lines := u.lines }
    (tr.state = .disabled ∨ tr.state = .idle ∨ tr.state = .faulted →
      ∃ u : State, becomes u (taken (if tr.state = .disabled then .idle else tr.state)) false ∧
        ∀ l : LineId, u.lines[l] =
          if group.getLsbD l then ⟨rest.getLsbD l, .output (rest.getLsbD l)⟩
          else if tr.state ≠ .disabled ∧ tr.group.getLsbD l then s.lines[l].toRest else s.lines[l]) ∧
    ((∃ a, tr.state = .armed a) → group = tr.group →
      ∃ u : State, becomes u (taken tr.state) false ∧
        ∀ l : LineId, u.lines[l] =
          if group.getLsbD l then ⟨rest.getLsbD l, .output (rest.getLsbD l)⟩ else s.lines[l]) ∧
    ((∃ r, tr.state = .holding r) → group = tr.group →
      ∃ u : State, becomes u (taken tr.state) false ∧
        ∀ l : LineId, u.lines[l] = if group.getLsbD l then { s.lines[l] with rest := rest.getLsbD l } else s.lines[l]) ∧
    (tr.state.context ≠ none → group = tr.group →
      becomes { s.restartSilence with tracks := s.tracks.set t { tr with
          pendingConfig := some ⟨p, rest, options.getLsbD 0, options.getLsbD 1⟩ } }
        { tr with pendingConfig := some ⟨p, rest, options.getLsbD 0, options.getLsbD 1⟩ } true)

/-- Configure Track with enable clear on a DISABLED, IDLE or FAULTED track with an empty queue disables it: its group is
empty, its lines go to rest and stay outputs, its policy and report options are kept; in any other state or with a page
queued it is refused BUSY (R50 to R52). With enable set an invalid policy, option, group or rest set is refused BAD_VALUE, a
change of the group of an ARMED, PLAYING, STALLED or HOLDING track BUSY, and a line that is no output or another track's, or
a queued page outside the group, FOOTPRINT (R50). Model choices: log entries 1 and 12. -/
def Obligations.ConfigureTrackDisablesOrRefuses : Prop :=
  ∀ (s : State) (tag : Byte) (t : TrackId) (policy options : Byte) (group rest : LineSet),
    s.isOpen = true → s.Executes 0x30 tag →
    let b := s.restartSilence
    let tr := s.tracks[t]
    let run (enable : Byte) := exec (.configureTrack tag (BitVec.ofNat 8 t.val) enable policy options group rest) s
    let refused (status : Status) := b.answered 0xB0 tag status (u8 t.val ++ u8 tr.state.code ++ u8 0)
    let fixes := tr.state ≠ .disabled ∧ tr.state ≠ .idle ∧ tr.state ≠ .faulted
    (¬fixes → tr.queue = [] →
      ∃ u : State, run 0 = .next (u.answered 0xB0 tag .ok (u8 t.val ++ u8 0 ++ u8 0)) ∧
        u = { b with tracks := s.tracks.set t { tr with state := .disabled, group := 0 }, lines := u.lines } ∧
        ∀ l : LineId, u.lines[l] = if tr.group.getLsbD l then s.lines[l].toRest else s.lines[l]) ∧
    (fixes ∨ tr.queue ≠ [] → run 0 = .next (refused .busy)) ∧
    ∀ enable : Byte, enable ≠ 0 →
      (Policy.ofByte policy = none ∨ group = 0 ∨ 4 ≤ options.toNat ∨ rest &&& ~~~group ≠ 0 →
        run enable = .next (refused .badValue)) ∧
      ∀ p, Policy.ofByte policy = some p → group ≠ 0 → options.toNat < 4 → rest &&& ~~~group = 0 →
        (fixes → group ≠ tr.group → run enable = .next (refused .busy)) ∧
        ((fixes → group = tr.group) →
          ((∃ l : LineId, group.getLsbD l = true ∧ ∀ driven, s.lines[l].role ≠ .output driven) ∨
            (∃ u : TrackId, u ≠ t ∧ s.tracks[u].group &&& group ≠ 0) ∨
            ∃ q ∈ tr.queue, s.pages[q].footprint &&& ~~~group ≠ 0) →
          run enable = .next (refused .footprint))

/-- Queue Page: a SEALED page whose footprint lies within the group joins the tail of the queue of a track that is neither
DISABLED nor FAULTED, QUEUED with that owner; a DISABLED or FAULTED track and a page in another state are refused BUSY, a
FREE page NOT_FOUND, a full queue NO_SPACE, a footprint outside the group FOOTPRINT (R20, R57, R58). Model choices: log
entries 1 and 12. -/
def Obligations.QueuePageJoinsTheTail : Prop :=
  ∀ (s : State) (tag : Byte) (p : PageId) (t : TrackId), s.isOpen = true → s.Executes 0x31 tag →
    let b := s.restartSilence
    let takes := s.tracks[t].state ≠ .disabled ∧ s.tracks[t].state ≠ .faulted
    let reply (u : State) (status : Status) (length : Nat) : Prop :=
      exec (.queuePage tag (BitVec.ofNat 8 p.val) (BitVec.ofNat 8 t.val)) s =
        .next (u.answered 0xB1 tag status (u8 t.val ++ u8 p.val ++ u8 length ++ u8 s.tracks[t].state.code))
    (¬takes → reply b .busy s.tracks[t].queue.length) ∧
    (takes → s.pages[p].state = .free → reply b .notFound s.tracks[t].queue.length) ∧
    (takes → s.pages[p].state = .opened ∨ s.pages[p].state = .queued ∨ s.pages[p].state = .active →
      reply b .busy s.tracks[t].queue.length) ∧
    (takes → s.pages[p].state = .sealed → 8 ≤ s.tracks[t].queue.length → reply b .noSpace s.tracks[t].queue.length) ∧
    (takes → s.pages[p].state = .sealed → s.tracks[t].queue.length < 8 →
      (s.pages[p].footprint &&& ~~~s.tracks[t].group ≠ 0 → reply b .footprint s.tracks[t].queue.length) ∧
      (s.pages[p].footprint &&& ~~~s.tracks[t].group = 0 →
        reply { b with
          pages := s.pages.set p { s.pages[p] with state := .queued, owner := some t }
          tracks := s.tracks.set t { s.tracks[t] with queue := s.tracks[t].queue ++ [p] } } .ok
          (s.tracks[t].queue.length + 1)))

/-- Flush Queue on a track with neither an armed start nor a release start empties its queue alone: every page of it leaves
the track, SEALED if it has RETAIN, FREE if it has not (R23, R78). It cancels an armed start, which takes the track to IDLE
with Start Cancelled, reason FLUSHED, a deferred start reply answered ABORTED, and removes a release start with the same
event, the track staying HOLDING (R66, R69, R77). Model choices: log entries 1 and 12. -/
def Obligations.FlushQueueReturnsThePages : Prop :=
  (∀ (s : State) (tag : Byte) (t : TrackId), s.isOpen = true → s.Executes 0x32 tag →
    (∀ a, s.tracks[t].state ≠ .armed a) → (∀ r : Stamp, s.tracks[t].state ≠ .holding (some r)) →
    s.tracks[t].queue.Nodup →
    ∃ u : State,
      exec (.flushQueue tag (BitVec.ofNat 8 t.val)) s =
        .next (u.answered 0xB2 tag .ok
          (u8 t.val ++ u8 s.tracks[t].queue.length ++ u8 s.tracks[t].state.code)) ∧
      u = { s.restartSilence with
        pages := u.pages, tracks := s.tracks.set t { s.tracks[t] with queue := [] } } ∧
      (∀ p ∈ s.tracks[t].queue, s.pages[p].retain = true →
        u.pages[p] = { s.pages[p] with state := .sealed, owner := none }) ∧
      (∀ p ∈ s.tracks[t].queue, s.pages[p].retain = false → u.pages[p] = Page.cleared) ∧
      ∀ p : PageId, p ∉ s.tracks[t].queue → u.pages[p] = s.pages[p]) ∧
  ∀ (s : State) (tag : Byte) (t : TrackId), s.isOpen = true → s.Executes 0x32 tag →
    let leaves (u : State) : Prop := s.tracks[t].queue.Nodup →
      (∀ p ∈ s.tracks[t].queue, s.pages[p].retain = true →
        u.pages[p] = { s.pages[p] with state := .sealed, owner := none }) ∧
      (∀ p ∈ s.tracks[t].queue, s.pages[p].retain = false → u.pages[p] = Page.cleared) ∧
      ∀ p : PageId, p ∉ s.tracks[t].queue → u.pages[p] = s.pages[p]
    let run := exec (.flushQueue tag (BitVec.ofNat 8 t.val)) s
    let reply (u : State) (code : Nat) : State :=
      u.answered 0xB2 tag .ok (u8 t.val ++ u8 s.tracks[t].queue.length ++ u8 code)
    (∀ a : ArmedStart, s.tracks[t].state = .armed a →
      ∃ u : State, run = .next (reply u 1) ∧
        u = { s.restartSilence with
          pages := u.pages, link := u.link, events := s.events.store (.startCancelled t .flushed)
          tracks := s.tracks.set t { s.tracks[t] with
            state := .idle, queue := [], hold := false, looping := false, stopRequest := false
            pendingConfig := none } } ∧
        leaves u ∧ Link.Answered s.link u.link (.start t) (abortedReply (.start t))) ∧
    ∀ r : Stamp, s.tracks[t].state = .holding (some r) →
      ∃ u : State, run = .next (reply u 5) ∧
        u = { s.restartSilence with
          pages := u.pages, events := s.events.store (.startCancelled t .flushed)
          tracks := s.tracks.set t { s.tracks[t] with state := .holding none, queue := [] } } ∧
        leaves u

/-! ## Tracks: starting and stopping -/

/-- Start Track without REPLY_ON_START on an IDLE track with a nonempty queue arms it and replies OK at once: AT with its
time, AFTER with now plus the delay; a time nearer than the lead of 64 ticks is refused TOO_LATE (R62, R63). AT_EPOCH: an
epoch not greater than the counter is refused TOO_LATE, otherwise SEEKING is refused BUSY, otherwise the track waits for that
epoch (R65). In each mode an unknown option bit, a byte the mode does not use that is not 0 and an argument out of its range
are refused BAD_VALUE whatever the track's state, with the track and its state, which for an unused byte is the model's
choice of fields, and so is a frame whose mode is none of the four (R62, R168, R186, R187). Model choices: log entries 1, 12
and 18. -/
def Obligations.StartsAreArmedAhead : Prop :=
  (∀ (s : State) (tag : Byte) (t : TrackId), s.isOpen = true → s.Executes 0x33 tag → s.tracks[t].state = .idle →
    s.tracks[t].queue ≠ [] →
    let b := s.restartSilence
    let armed (start : Stamp) : State :=
      ({ b with tracks := s.tracks.set t { s.tracks[t] with state := .armed ⟨.timed start false, false⟩ } }).answered
        0xB3 tag .ok (u8 t.val ++ u8 2 ++ u8 0 ++ u8 0 ++ u8 0 ++ le48 start ++ u8 0 ++ u32 0)
    (∀ time : Stamp, 64 ≤ (time - s.timeline).toInt →
      exec (.startTrackAt tag (BitVec.ofNat 8 t.val) 0 0 time 0) s = .next (armed time)) ∧
    (∀ time : Stamp, (time - s.timeline).toInt < 64 →
      exec (.startTrackAt tag (BitVec.ofNat 8 t.val) 0 0 time 0) s =
        .next (b.answered 0xB3 tag .tooLate (u8 t.val ++ u8 1 ++ zeros 14))) ∧
    (∀ d : Word32, 64 ≤ d.toNat →
      exec (.startTrackAfter tag (BitVec.ofNat 8 t.val) 0 0 (d.setWidth 48) 0) s =
        .next (armed (s.timeline + d.setWidth 48))) ∧
    (∀ d : Word32, d.toNat < 64 →
      exec (.startTrackAfter tag (BitVec.ofNat 8 t.val) 0 0 (d.setWidth 48) 0) s =
        .next (b.answered 0xB3 tag .badValue (u8 t.val ++ u8 1 ++ zeros 14)))) ∧
  (∀ (s : State) (tag options : Byte) (t : TrackId) (k : TriggerId) (time : Stamp) (n offset : Word32),
    s.isOpen = true → s.Executes 0x33 tag → options.toNat < 2 → 64 ≤ n.toNat →
    let starts : List Instr :=
      [.startTrackAt tag (BitVec.ofNat 8 t.val) options 0 time 0,
        .startTrackAfter tag (BitVec.ofNat 8 t.val) options 0 (n.setWidth 48) 0,
        .startTrackOnTrigger tag (BitVec.ofNat 8 t.val) options (BitVec.ofNat 8 k.val) 0 offset,
        .startTrackAtEpoch tag (BitVec.ofNat 8 t.val) options 0 (n.setWidth 48) offset]
    let refused (status : Status) :=
      s.restartSilence.answered 0xB3 tag status (u8 t.val ++ u8 s.tracks[t].state.code ++ zeros 14)
    (s.tracks[t].state ≠ .idle → ∀ i ∈ starts, exec i s = .next (refused .busy)) ∧
    (s.tracks[t].state = .idle → s.tracks[t].queue = [] → ∀ i ∈ starts, exec i s = .next (refused .empty))) ∧
  (∀ (s : State) (tag options trigger : Byte) (t : TrackId) (time : Stamp) (offset : Word32),
    s.isOpen = true → s.Executes 0x33 tag →
    let track := BitVec.ofNat 8 t.val
    let refused (i : Instr) : Prop :=
      exec i s =
        .next (s.restartSilence.answered 0xB3 tag .badValue (u8 t.val ++ u8 s.tracks[t].state.code ++ zeros 14))
    (trigger ≠ 0 ∨ offset ≠ 0 ∨ 2 ≤ options.toNat → refused (.startTrackAt tag track options trigger time offset)) ∧
    (trigger ≠ 0 ∨ offset ≠ 0 ∨ 2 ≤ options.toNat ∨ 2 ^ 32 ≤ time.toNat ∨ time.toNat < 64 →
      refused (.startTrackAfter tag track options trigger time offset)) ∧
    (4 ≤ trigger.toNat ∨ time ≠ 0 ∨ 2 ≤ options.toNat →
      refused (.startTrackOnTrigger tag track options trigger time offset)) ∧
    (trigger ≠ 0 ∨ 2 ^ 32 ≤ time.toNat ∨ 2 ≤ options.toNat →
      refused (.startTrackAtEpoch tag track options trigger time offset))) ∧
  (∀ (s : State) (f : Frame) (track mode : Byte) (rest : List Byte), s.isOpen = true →
    f.tag = 0 ∨ (s.cached f.tag = none ∧ s.inFlight f.tag = false) →
    f.kind = 0x33 → f.payload = track :: mode :: rest → rest.length = 12 → 4 ≤ mode.toNat →
    let code : Nat := if h : track.toNat < 8 then s.tracks[track.toNat].state.code else 0
    s.dispatch f (frameOwner f) = s.answered 0xB3 f.tag .badValue ([track] ++ u8 code ++ zeros 14)) ∧
  ∀ (s : State) (tag : Byte) (t : TrackId) (n offset : Word32), s.isOpen = true → s.Executes 0x33 tag →
    s.tracks[t].state = .idle → s.tracks[t].queue ≠ [] →
    let b := s.restartSilence
    let run := exec (.startTrackAtEpoch tag (BitVec.ofNat 8 t.val) 0 0 (n.setWidth 48) offset) s
    (n.toNat ≤ s.reference.epoch.toNat → run = .next (b.answered 0xB3 tag .tooLate (u8 t.val ++ u8 1 ++ zeros 14))) ∧
    (s.reference.epoch.toNat < n.toNat → s.reference.status = .seeking →
      run = .next (b.answered 0xB3 tag .busy (u8 t.val ++ u8 1 ++ zeros 14))) ∧
    (s.reference.epoch.toNat < n.toNat → s.reference.status ≠ .seeking →
      run = .next (({ b with tracks := s.tracks.set t { s.tracks[t] with
          state := .armed ⟨.onEpoch n offset, false⟩ } }).answered 0xB3 tag .ok
        (u8 t.val ++ u8 2 ++ u8 2 ++ u8 0 ++ u8 0 ++ zeros 6 ++ u8 0 ++ le32 n)))

/-- Start Track in mode ON_TRIGGER by the latch: DISARMED is refused BUSY, ARMED and BLOCKED are joined, FIRED is consumed
when the fire stamp plus offset keeps the lead and refused TOO_LATE, unconsumed, otherwise (R64). Model choices: log entries
1 and 12. -/
def Obligations.TriggerStartsFollowTheLatch : Prop :=
  ∀ (s : State) (tag : Byte) (t : TrackId) (k : TriggerId) (offset : Word32), s.isOpen = true → s.Executes 0x33 tag →
    s.tracks[t].state = .idle → s.tracks[t].queue ≠ [] →
    let b := s.restartSilence
    let run := exec (.startTrackOnTrigger tag (BitVec.ofNat 8 t.val) 0 (BitVec.ofNat 8 k.val) 0 offset) s
    let refused (status : Status) := b.answered 0xB3 tag status (u8 t.val ++ u8 1 ++ zeros 14)
    (s.triggers[k].latch = .disarmed → run = .next (refused .busy)) ∧
    (s.triggers[k].latch = .armed ∨ s.triggers[k].latch = .blocked →
      run = .next (({ b with tracks := s.tracks.set t { s.tracks[t] with
          state := .armed ⟨.onTrigger k offset, false⟩ } }).answered 0xB3 tag .ok
        (u8 t.val ++ u8 2 ++ u8 1 ++ u8 0 ++ u8 0 ++ zeros 6 ++ u8 k.val ++ u32 0))) ∧
    ∀ f c o, s.triggers[k].latch = .fired f c o →
      let start : Stamp := f + offset.setWidth 48
      ((start - s.timeline).toInt < 64 → run = .next (refused .tooLate)) ∧
      (64 ≤ (start - s.timeline).toInt →
        run = .next (({ b with
            triggers := (s.consume k).triggers
            tracks := s.tracks.set t { s.tracks[t] with state := .armed ⟨.timed start false, false⟩ } }).answered
          0xB3 tag .ok (u8 t.val ++ u8 2 ++ u8 0 ++ u8 0 ++ u8 0 ++ le48 start ++ u8 0 ++ u32 0)))

/-- Start Track with REPLY_ON_START takes a deferred request slot, arms the track and produces no reply, in each mode by that
mode's own conditions: AT and AFTER a start far enough ahead; ON_TRIGGER an ARMED or BLOCKED trigger, or a FIRED one whose
stamp plus offset keeps the lead, its firing consumed; AT_EPOCH an epoch ahead and a reference not SEEKING (R62 to R66,
R172). Stop Track END on a PLAYING or STALLED track sets the stop request and defers its reply the same way; a second one is
refused BUSY (R72). With all 4 slots held both are refused WINDOW_FULL. Model choices: log entries 1, 12 and 31. -/
def Obligations.DeferringRequestsTakeASlot : Prop :=
  (∀ (s : State) (tag : Byte) (t : TrackId),
    s.isOpen = true → s.Executes 0x33 tag → s.tracks[t].state = .idle → s.tracks[t].queue ≠ [] →
    let b := s.restartSilence
    let track := BitVec.ofNat 8 t.val
    let defers (i : Instr) (u : State) (form : StartForm) : Prop :=
      (s.heldSlots < 4 →
        exec i s = .next { u with
          tracks := s.tracks.set t { s.tracks[t] with state := .armed ⟨form, true⟩ }
          link := { s.link with awaiting := s.link.awaiting ++ [⟨.start t, tag⟩] } }) ∧
      (4 ≤ s.heldSlots →
        exec i s = .next (b.answered 0xB3 tag .windowFull (u8 t.val ++ u8 1 ++ zeros 14)))
    (∀ time : Stamp, 64 ≤ (time - s.timeline).toInt →
      defers (.startTrackAt tag track 1 0 time 0) b (.timed time false)) ∧
    (∀ n : Word32, 64 ≤ n.toNat →
      defers (.startTrackAfter tag track 1 0 (n.setWidth 48) 0) b (.timed (s.timeline + n.setWidth 48) false)) ∧
    (∀ (k : TriggerId) (offset : Word32), s.triggers[k].latch = .armed ∨ s.triggers[k].latch = .blocked →
      defers (.startTrackOnTrigger tag track 1 (BitVec.ofNat 8 k.val) 0 offset) b (.onTrigger k offset)) ∧
    (∀ (k : TriggerId) (offset : Word32) (f c : Stamp) (overrun : Bool), s.triggers[k].latch = .fired f c overrun →
      64 ≤ (f + offset.setWidth 48 - s.timeline).toInt →
      defers (.startTrackOnTrigger tag track 1 (BitVec.ofNat 8 k.val) 0 offset)
        { b with triggers := (s.consume k).triggers } (.timed (f + offset.setWidth 48) false)) ∧
    ∀ n offset : Word32, s.reference.epoch.toNat < n.toNat → s.reference.status ≠ .seeking →
      defers (.startTrackAtEpoch tag track 1 0 (n.setWidth 48) offset) b (.onEpoch n offset)) ∧
  ∀ (s : State) (tag : Byte) (t : TrackId), s.isOpen = true → s.Executes 0x34 tag →
    s.tracks[t].state.context ≠ none →
    let b := s.restartSilence
    (s.tracks[t].stopRequest = true →
      exec (.stopTrackEnd tag (BitVec.ofNat 8 t.val)) s = .next (b.answered 0xB4 tag .busy (zeros 8))) ∧
    (s.tracks[t].stopRequest = false → 4 ≤ s.heldSlots →
      exec (.stopTrackEnd tag (BitVec.ofNat 8 t.val)) s = .next (b.answered 0xB4 tag .windowFull (zeros 8))) ∧
    (s.tracks[t].stopRequest = false → s.heldSlots < 4 →
      exec (.stopTrackEnd tag (BitVec.ofNat 8 t.val)) s =
        .next { b with
          tracks := s.tracks.set t { s.tracks[t] with stopRequest := true }
          link := { s.link with awaiting := s.link.awaiting ++ [⟨.stopEnd t, tag⟩] } })

/-- Stop Track ABORT on a PLAYING or STALLED track retires the active page ABORTED, its pulse ends dropped, and takes the
track to IDLE at rest with Track Stopped, reason ABORT; an ARMED, HOLDING or FAULTED track goes the same way (R71). A pending
configuration is applied first (R55, R71). A deferred Stop Track END and a deferred start are answered ABORTED (R66, R71,
R73). Stop Track END takes a HOLDING or FAULTED track to IDLE at rest at once, reason END, and cancels an armed start, reason
STOPPED (R69, R74). On an IDLE or DISABLED track both reply OK and change nothing. A frame whose mode is neither is refused
BAD_VALUE (R71). An OK gives what its rule gives: ABORT the track and the state, the others the state alone (R71, R74, R188).
Model choices: log entries 1 and 12. -/
def Obligations.StopsTakeTheTrackToIdle : Prop :=
  (∀ (s : State) (f : Frame) (track mode : Byte), s.isOpen = true →
    f.tag = 0 ∨ (s.cached f.tag = none ∧ s.inFlight f.tag = false) →
    f.kind = 0x34 → f.payload = [track, mode] → 2 ≤ mode.toNat →
    s.dispatch f (frameOwner f) = s.answered 0xB4 f.tag .badValue (zeros 8)) ∧
  ∀ (s : State) (tag : Byte) (t : TrackId), s.isOpen = true → s.Executes 0x34 tag →
    let abort := exec (.stopTrackAbort tag (BitVec.ofNat 8 t.val))
    let answeredAborted (u : State) : Prop := ∃ mid : Link,
      Link.Answered s.link mid (.stopEnd t) (abortedReply (.stopEnd t)) ∧
        Link.Answered mid u.link (.start t) (abortedReply (.start t))
    (∀ c : Playback, s.tracks[t].state.context = some c → s.tracks[t].pendingConfig = none →
      ∃ u : State,
        abort s = .next (u.answered 0xB4 tag .ok (u8 t.val ++ u8 1 ++ zeros 6)) ∧
        u = { s.restartSilence with
          tracks := s.tracks.set t { s.tracks[t] with
            state := .idle, hold := false, looping := false, stopRequest := false }
          pages := s.pages.set c.page (if s.pages[c.page].retain
            then { s.pages[c.page] with state := .sealed, owner := none } else Page.cleared)
          events := u.events, lines := u.lines, link := u.link } ∧
        answeredAborted u ∧
        u.events = (if s.tracks[t].reportRetired
          then s.events.store (.pageRetired t c.page s.timeline .aborted c.repsPlayed) else s.events).store
            (.trackStopped t s.timeline .abort) ∧
        ∀ l : LineId, u.lines[l] =
          if s.tracks[t].group.getLsbD l then s.lines[l].toRest else s.lines[l]) ∧
    (∀ (s' : State) (q : PendingConfig), s.tracks[t].state.context ≠ none → s.Applied s' t q → abort s = abort s') ∧
    (s.tracks[t].state = .idle ∨ s.tracks[t].state = .disabled →
      ∀ i ∈ [Instr.stopTrackAbort tag (BitVec.ofNat 8 t.val), .stopTrackEnd tag (BitVec.ofNat 8 t.val)],
        exec i s = .next (s.restartSilence.answered 0xB4 tag .ok (u8 0 ++ u8 s.tracks[t].state.code ++ zeros 6))) ∧
    (s.tracks[t].pendingConfig = none →
      let idle : Track := { s.tracks[t] with state := .idle, hold := false, looping := false, stopRequest := false }
      let ends (i : Instr) (track : Nat) (e : Event) (rests : Bool) (link : State → Prop) : Prop :=
        ∃ u : State, exec i s = .next (u.answered 0xB4 tag .ok (u8 track ++ u8 1 ++ zeros 6)) ∧
          u = { s.restartSilence with
            tracks := s.tracks.set t idle, events := s.events.store e, lines := u.lines, link := u.link } ∧
          (∀ l : LineId, u.lines[l] =
            if rests ∧ s.tracks[t].group.getLsbD l then s.lines[l].toRest else s.lines[l]) ∧ link u
      ((∃ a, s.tracks[t].state = .armed a) ∨ (∃ r, s.tracks[t].state = .holding r) ∨ s.tracks[t].state = .faulted →
        ends (.stopTrackAbort tag (BitVec.ofNat 8 t.val)) t.val (.trackStopped t s.timeline .abort) true answeredAborted) ∧
      ((∃ r, s.tracks[t].state = .holding r) ∨ s.tracks[t].state = .faulted →
        ends (.stopTrackEnd tag (BitVec.ofNat 8 t.val)) 0 (.trackStopped t s.timeline .atEnd) true
          fun u => u.link = s.link) ∧
      ((∃ a, s.tracks[t].state = .armed a) →
        ends (.stopTrackEnd tag (BitVec.ofNat 8 t.val)) 0 (.startCancelled t .stopped) false
          fun u => Link.Answered s.link u.link (.start t) (abortedReply (.start t))))

/-- Hold Track sets the hold flag of an ARMED, PLAYING or STALLED track without a stop request, and is refused BUSY with one;
Release Track clears a set flag there, and is refused BUSY with a clear one. On a HOLDING track a hold replies OK; a release
sets a release start at now plus 64, reports one already set, and is refused EMPTY with an empty queue. On another track both
are refused BUSY. An OK gives the track's state, which for a hold in HOLDING is the model's choice, and of a HOLDING track's
release the release start time (R75, R76, R188). Model choices: log entries 1 and 12. -/
def Obligations.HoldAndReleaseSetTheFlag : Prop :=
  ∀ (s : State) (tag : Byte) (t : TrackId), s.isOpen = true →
    let b := s.restartSilence
    let reply := u8 0 ++ u8 s.tracks[t].state.code
    let running := (∃ a, s.tracks[t].state = .armed a) ∨ s.tracks[t].state.context ≠ none
    (s.Executes 0x35 tag → running →
      (s.tracks[t].stopRequest = false →
        exec (.holdTrack tag (BitVec.ofNat 8 t.val)) s =
          .next (({ b with tracks := s.tracks.set t { s.tracks[t] with hold := true } }).answered 0xB5 tag .ok reply)) ∧
      (s.tracks[t].stopRequest = true →
        exec (.holdTrack tag (BitVec.ofNat 8 t.val)) s = .next (b.answered 0xB5 tag .busy (zeros 2)))) ∧
    (s.Executes 0x36 tag → running →
      (s.tracks[t].hold = true →
        exec (.releaseTrack tag (BitVec.ofNat 8 t.val)) s =
          .next (({ b with tracks := s.tracks.set t { s.tracks[t] with hold := false } }).answered 0xB6 tag .ok
            (reply ++ zeros 6))) ∧
      (s.tracks[t].hold = false →
        exec (.releaseTrack tag (BitVec.ofNat 8 t.val)) s = .next (b.answered 0xB6 tag .busy (zeros 8)))) ∧
    (s.tracks[t].state = .idle ∨ s.tracks[t].state = .disabled ∨ s.tracks[t].state = .faulted →
      (s.Executes 0x35 tag → exec (.holdTrack tag (BitVec.ofNat 8 t.val)) s = .next (b.answered 0xB5 tag .busy (zeros 2))) ∧
      (s.Executes 0x36 tag →
        exec (.releaseTrack tag (BitVec.ofNat 8 t.val)) s = .next (b.answered 0xB6 tag .busy (zeros 8)))) ∧
    (∀ release, s.tracks[t].state = .holding release →
      (s.Executes 0x35 tag → exec (.holdTrack tag (BitVec.ofNat 8 t.val)) s = .next (b.answered 0xB5 tag .ok reply)) ∧
      (s.Executes 0x36 tag → s.tracks[t].queue = [] →
        exec (.releaseTrack tag (BitVec.ofNat 8 t.val)) s = .next (b.answered 0xB6 tag .empty (zeros 8))) ∧
      (s.Executes 0x36 tag → s.tracks[t].queue ≠ [] → ∀ start, release = some start →
        exec (.releaseTrack tag (BitVec.ofNat 8 t.val)) s = .next (b.answered 0xB6 tag .ok (reply ++ le48 start)))) ∧
    (s.Executes 0x36 tag → s.tracks[t].state = .holding none → s.tracks[t].queue ≠ [] →
      exec (.releaseTrack tag (BitVec.ofNat 8 t.val)) s =
        .next (({ b with tracks := s.tracks.set t { s.tracks[t] with
            state := .holding (some (s.timeline + 64)) } }).answered 0xB6 tag .ok (reply ++ le48 (s.timeline + 64))))

/-- Read Track changes nothing and reports the track in its 65 bytes, in each of its states: in PLAYING with the page-time
position of R33, in STALLED with the gate's offset, trigger and step, in ARMED with the start, in HOLDING with the release
start; fields not present are zero (R80, R188). Repetition indices above 65535 are left out. Model choices: log entry 1. -/
def Obligations.ReadTrackReportsTheTrack : Prop :=
  ∀ (s : State) (tag : Byte) (t : TrackId), s.isOpen = true → s.Executes 0x37 tag →
    let tr := s.tracks[t]
    let bit (b : Bool) (n : Nat) : Nat := if b then 2 ^ n else 0
    let head (late : Nat) := u8 t.val ++ u8 tr.state.code ++ le48 s.timeline ++ le16 tr.group ++ u8 tr.policy.code ++
      u8 (bit tr.reportStarted 0 + bit tr.reportRetired 1) ++ u8 tr.queue.length ++
      ((tr.queue.map fun p => (BitVec.ofNat 8 p.val : Byte)) ++ zeros 8).take 8 ++
      u8 (bit tr.hold 0 + bit tr.stopRequest 1 + bit tr.looping 2 + bit tr.pendingConfig.isSome 3 + late)
    (∀ c : Playback, tr.state = .playing c → c.repIndex < 65536 →
      exec (.readTrack tag (BitVec.ofNat 8 t.val)) s =
        .next (s.restartSilence.answered 0xB7 tag .ok
          (head 0 ++ u8 c.page.val ++ le48 c.runStart ++ u16 c.repIndex ++ u32 c.repsPlayed ++
            le32 ((s.timeline - c.repStart - c.stall).setWidth 32) ++ u8 c.nextStep ++ le48 c.stall ++
            u8 c.pulseEnds.length ++ zeros 18))) ∧
    (∀ (c : Playback) (g : GateWait), tr.state = .stalled c g → c.repIndex < 65536 →
      exec (.readTrack tag (BitVec.ofNat 8 t.val)) s =
        .next (s.restartSilence.answered 0xB7 tag .ok
          (head 0 ++ u8 c.page.val ++ le48 c.runStart ++ u16 c.repIndex ++ u32 c.repsPlayed ++ le32 g.offset ++
            u8 c.nextStep ++ le48 c.stall ++ u8 c.pulseEnds.length ++ u8 g.trigger.val ++ u8 g.index ++ zeros 16))) ∧
    (∀ (form : StartForm) (reply : Bool), tr.state = .armed ⟨form, reply⟩ →
      exec (.readTrack tag (BitVec.ofNat 8 t.val)) s =
        .next (s.restartSilence.answered 0xB7 tag .ok
          (match form with
            | .timed start late =>
              head (bit reply 4 + bit late 5) ++ zeros 27 ++ u8 0 ++ le48 start ++ zeros 9
            | .onTrigger k offset =>
              head (bit reply 4) ++ zeros 27 ++ u8 1 ++ zeros 6 ++ u8 k.val ++ zeros 4 ++ le32 offset
            | .onEpoch n offset =>
              head (bit reply 4) ++ zeros 27 ++ u8 2 ++ zeros 6 ++ u8 0 ++ le32 n ++ le32 offset))) ∧
    (∀ release : Option Stamp, tr.state = .holding release →
      exec (.readTrack tag (BitVec.ofNat 8 t.val)) s =
        .next (s.restartSilence.answered 0xB7 tag .ok
          (head (bit release.isSome 6) ++ zeros 28 ++ le48 (release.getD 0) ++ zeros 9))) ∧
    (tr.state = .idle ∨ tr.state = .disabled ∨ tr.state = .faulted →
      exec (.readTrack tag (BitVec.ofNat 8 t.val)) s =
        .next (s.restartSilence.answered 0xB7 tag .ok (head 0 ++ zeros 43)))

/-! ## Playback -/

/-- An armed start of form TIMED and a release start make the front page active with their time as start stamp: the page
ACTIVE with this owner, the context set afresh, Track Started queued if reported, the deferred start reply answered, and then
the steps at offset 0 (R21, R32, R66, R67, R77). The reply sets bit 1 and gives the track, the page, the start stamp and
LATE; that its other fields are left 0 is the model's choice (R66, R188). Model choices: log entries 3 and 12. -/
def Obligations.StartsMakeTheFrontPageActive : Prop :=
  ∀ (s : State) (t : TrackId) (p : PageId) (rest : List PageId) (d : Nat) (start : Stamp),
    s.tracks[t].queue = p :: rest → s.isOpen = true →
    let w := s.afterPeriods d
    let active (late : Bool) : State :=
      { w with
        pages := s.pages.set p { s.pages[p] with state := .active, owner := some t }
        tracks := s.tracks.set t { s.tracks[t] with
          state := .playing ⟨p, start, start, 0, 0, 0, [], 0⟩, queue := rest, looping := false }
        events := if s.tracks[t].reportStarted then s.events.store (.trackStarted t p start late) else s.events }
    (w.isOpen = true → ∀ late reply, s.tracks[t].state = .armed ⟨.timed start late, reply⟩ →
      s.dueAfter (.armedStartEffect t) d →
      exec (.armedStartEffect t) s =
        .next (((active late).compose (.start t) .ok
          (u8 t.val ++ u8 0 ++ u8 0 ++ u8 (2 + late.toNat) ++ u8 p.val ++ le48 start ++ u8 0 ++ u32 0)).playFrom t 0)) ∧
    (w.isOpen = true → s.tracks[t].state = .holding (some start) → s.dueAfter (.releaseStartEffect t) d →
      exec (.releaseStartEffect t) s = .next ((active false).playFrom t 0)) ∧
    ∀ u : State, (∃ c, u.tracks[t].state = .playing c ∧ c.nextStep = 0 ∧
        ∀ st, u.pages[c.page].steps.head? = some st → st.offset ≠ 0) → u.playFrom t 0 = u

/-- At the tick b plus o plus a at which page time reaches the next step's offset o, b being the repetition start stamp and a
the stall, with no pulse end before it, a PLAYING track takes the steps at that offset in list order, until one lies later or
a GATE stops page time (R33, R34); and what a step does: a DRIVE, TOGGLE, PULSE or MARK changes the driven levels of its own
lines, adds its pulse end in order of end offset, after those with an equal one, queues its Mark, and the next step index
passes it; a GATE is reached with the index passed (R4 to R8, R35, R36, R37). Only an output has a driven level (R119). Model
choices: log entry 3. -/
def Obligations.StepsTakeEffectAtTheirOffset : Prop :=
  (∀ (s : State) (t : TrackId) (c : Playback) (st : Step) (rest : List Step) (d : Nat),
    s.tracks[t].state = .playing c → (∀ e ∈ c.pulseEnds, st.offset.toNat < e.offset.toNat) →
    s.pages[c.page].steps.drop c.nextStep = st :: rest →
    st.offset.toNat < s.pages[c.page].period.toNat → s.dueAfter (.trackActionTick t) d →
    exec (.trackActionTick t) s = .next (State.takeSteps t st.offset.toNat (st :: rest) (s.afterPeriods d)) ∧
      let tick := c.repStart + st.offset.setWidth 48 + c.stall
      (0 < (tick - s.timeline).toInt → s.prescale < s.divider → s.phase ≠ .reset → (s.afterPeriods d).timeline = tick) ∧
      (¬0 < (tick - s.timeline).toInt → d = 0)) ∧
  (∀ (s : State) (t : TrackId) (time : Nat) (st : Step) (rest : List Step),
    State.takeSteps t time [] s = s ∧
      (∀ c, s.tracks[t].state = .playing c → st.offset.toNat = time →
        State.takeSteps t time (st :: rest) s = State.takeSteps t time rest (s.takeStep t c st)) ∧
      (st.offset.toNat ≠ time → State.takeSteps t time (st :: rest) s = s) ∧
      ((∀ c, s.tracks[t].state ≠ .playing c) → State.takeSteps t time (st :: rest) s = s)) ∧
  (∀ (s : State) (t : TrackId) (c : Playback) (o w : Word32) (m v : LineSet) (level : Bool) (code : Word16),
    let passed : State := { s with tracks := s.tracks.set t { s.tracks[t] with
      state := .playing { c with nextStep := c.nextStep + 1 } } }
    (∀ l : LineId, (s.takeStep t c (.drive o m v)).lines[l] =
        if m.getLsbD l then s.lines[l].drive (v.getLsbD l) else s.lines[l]) ∧
      { s.takeStep t c (.drive o m v) with lines := s.lines } = passed ∧
    (∀ l : LineId, (s.takeStep t c (.toggle o m)).lines[l] =
        if m.getLsbD l then s.lines[l].toggle else s.lines[l]) ∧
      { s.takeStep t c (.toggle o m) with lines := s.lines } = passed ∧
    (∀ l : LineId, (s.takeStep t c (.pulse o m level w)).lines[l] =
        if m.getLsbD l then s.lines[l].drive level else s.lines[l]) ∧
      (∃ before after : List PulseEnd,
        let new : PulseEnd := ⟨o + w, m, !level⟩
        c.pulseEnds = before ++ after ∧ (∀ e ∈ before, e.offset.toNat ≤ new.offset.toNat) ∧
        (∀ e, after.head? = some e → new.offset.toNat < e.offset.toNat) ∧
        { s.takeStep t c (.pulse o m level w) with lines := s.lines } = { s with
          tracks := s.tracks.set t { s.tracks[t] with
            state := .playing { c with nextStep := c.nextStep + 1, pulseEnds := before ++ new :: after } } } ∧
        (c.pulseEnds.Pairwise (fun a b => a.offset.toNat ≤ b.offset.toNat) →
          (before ++ new :: after).Pairwise fun a b => a.offset.toNat ≤ b.offset.toNat)) ∧
    s.takeStep t c (.mark o code) = passed.queueEvent (.mark t c.page c.nextStep code s.timeline) ∧
    ∀ (k : TriggerId) (timeout : Word32) (action : GateAction) (report : Bool),
      s.takeStep t c (.gate o k timeout action report) =
        passed.reachGate t { c with nextStep := c.nextStep + 1 } c.nextStep o k timeout action report) ∧
  ∀ (rest driven level : Bool) (role : LineRole),
    Line.drive ⟨rest, .output driven⟩ level = ⟨rest, .output level⟩ ∧
      Line.toggle ⟨rest, .output driven⟩ = ⟨rest, .output !driven⟩ ∧
      Line.toRest ⟨rest, .output driven⟩ = ⟨rest, .output rest⟩ ∧
      ((∀ x, role ≠ .output x) →
        Line.drive ⟨rest, role⟩ level = ⟨rest, role⟩ ∧ Line.toggle ⟨rest, role⟩ = ⟨rest, role⟩ ∧
          Line.toRest ⟨rest, role⟩ = ⟨rest, role⟩)

/-- The pulse ends due at a page time before the period, and no later than the next step, set their lines to their levels and
leave the list, and the steps at that page time follow (R34, R35). At the period, with every step taken, the pulse ends due
there come first, then the repetition ends: with repetitions left, or with repeat count 0 and neither a queued page nor a
hold nor a stop, the next begins at the same tick (R38, R39); otherwise the run ends there. The steps at offset 0 follow. The
ends due take effect in their order, each setting every line of its set to its level and touching nothing else (R35). Model
choices: log entry 3. -/
def Obligations.PageTimeRunsToThePeriod : Prop :=
  (∀ (s : State) (t : TrackId) (c : Playback) (d : Nat), s.tracks[t].state = .playing c →
    s.dueAfter (.trackActionTick t) d →
    let w := s.afterPeriods d
    let page := s.pages[c.page]
    let period := page.period.toNat
    let left (time : Nat) : Playback := { c with pulseEnds := c.pulseEnds.filter fun e => e.offset.toNat != time }
    let ends (time : Nat) := c.pulseEnds.filter fun e => e.offset.toNat == time
    let playing (c' : Playback) (time : Nat) : State :=
      { w.endPulses (ends time) with tracks := s.tracks.set t { s.tracks[t] with state := .playing c' } }
    (∀ time : Nat, ends time ≠ [] → (∀ f ∈ c.pulseEnds, time ≤ f.offset.toNat) → time < period →
      (∀ st ∈ page.steps.drop c.nextStep, time ≤ st.offset.toNat) →
      exec (.trackActionTick t) s = .next ((playing (left time) time).playFrom t time)) ∧
    ((∀ f ∈ c.pulseEnds, period ≤ f.offset.toNat) → page.steps.length ≤ c.nextStep →
      let ended := { left period with repsPlayed := min (c.repsPlayed + 1) 4294967295 }
      let next := { ended with repIndex := c.repIndex + 1, repStart := w.timeline, nextStep := 0, stall := 0 }
      let goesOn := if page.repeats = 0
        then s.tracks[t].queue = [] ∧ s.tracks[t].hold = false ∧ s.tracks[t].stopRequest = false
        else c.repIndex + 1 < page.repeats.toNat
      (goesOn → exec (.trackActionTick t) s = .next ((playing next period).playFrom t 0)) ∧
      (¬goesOn →
        exec (.trackActionTick t) s = .next (((playing (left period) period).runEnd t ended).playFrom t 0)))) ∧
  (∀ s : State, s.endPulses [] = s) ∧
  ∀ (s : State) (e : PulseEnd) (later : List PulseEnd),
    ∃ u : State, s.endPulses (e :: later) = u.endPulses later ∧ u = { s with lines := u.lines } ∧
      ∀ l : LineId, u.lines[l] = if e.lines.getLsbD l then s.lines[l].drive e.level else s.lines[l]

/-- The run end's outcome is the first condition that holds: a stop request END takes the track to IDLE at rest with its
deferred reply OK, which gives the end stamp (R73, R188); HOLD_AFTER or the hold flag to HOLDING; a queued page is advanced
to, its start stamp the end stamp; else the policy decides. The page is retired COMPLETE unless it loops, and the events
follow in order (R40 to R47, R49). A pending configuration is applied first, the driven levels of the lines staying (R40,
R55). Model choices: log entry 12. -/
def Obligations.RunEndTakesTheFirstCondition : Prop :=
  (∀ (s : State) (t : TrackId) (c : Playback) (q : PendingConfig), s.tracks[t].pendingConfig = some q →
    s.runEnd t c = State.runEnd { s with
      tracks := s.tracks.set t { s.tracks[t] with
        policy := q.policy, reportStarted := q.reportStarted, reportRetired := q.reportRetired, pendingConfig := none }
      lines := (s.storeRest s.tracks[t].group q.rest).lines } t c) ∧
  ∀ (s : State) (t : TrackId) (c : Playback), s.isOpen = true → s.tracks[t].pendingConfig = none →
    let tr := s.tracks[t]
    let page := s.pages[c.page]
    let now := s.timeline
    let left : Vector Page 64 := s.pages.set c.page
      (if page.retain then { page with state := .sealed, owner := none } else Page.cleared)
    let retired : EventUnit :=
      if tr.reportRetired then s.events.store (.pageRetired t c.page now .complete c.repsPlayed) else s.events
    let settled (st : TrackState) : Vector Track 8 :=
      s.tracks.set t { tr with state := st, hold := false, looping := false, stopRequest := false }
    let base (st : TrackState) : State := { s with pages := left, tracks := settled st, events := retired }
    (tr.stopRequest = true →
      s.runEnd t c =
        ((((base .idle).restLines tr.group).compose (.stopEnd t) .ok (zeros 2 ++ le48 now)).queueEvent
          (.trackStopped t now .atEnd))) ∧
    (tr.stopRequest = false → (page.holdAfter = true ∨ tr.hold = true) →
      s.runEnd t c = (base (.holding none)).queueEvent (.trackHeld t now)) ∧
    (tr.stopRequest = false → page.holdAfter = false → tr.hold = false →
      (∀ p rest, tr.queue = p :: rest → p ≠ c.page →
        s.runEnd t c =
          { s with
            pages := left.set p { s.pages[p] with state := .active, owner := some t }
            tracks := s.tracks.set t { tr with
              state := .playing ⟨p, now, now, 0, 0, 0, [], 0⟩, queue := rest, looping := false }
            events := if tr.reportStarted then retired.store (.trackStarted t p now false) else retired }) ∧
      (tr.queue = [] →
        (tr.policy = .holdLevels →
          s.runEnd t c = (base (.holding none)).queueEvent (.trackUnderrun t .holdLevels now)) ∧
        (tr.policy = .rest →
          s.runEnd t c =
            (((base .idle).restLines tr.group).queueEvent (.trackUnderrun t .rest now)).queueEvent
              (.trackStopped t now .underrun)) ∧
        (tr.policy = .fault →
          s.runEnd t c = ((base .faulted).restLines tr.group).queueEvent (.trackFault t .underrun now)) ∧
        (tr.policy = .repeatLast →
          s.runEnd t c =
            { s with
              tracks := s.tracks.set t { tr with
                looping := true
                state := .playing { c with runStart := now, repStart := now, repIndex := 0, nextStep := 0, stall := 0 } }
              events := if tr.looping then s.events else s.events.store (.trackUnderrun t .repeatLast now) })))

/-! ## Gates -/

/-- Page time reaching a GATE step acts on the latch: FIRED is consumed and the track goes on; ARMED or BLOCKED stalls it,
with an expiry at g plus the timeout unless that is 0; DISARMED applies the action at once with a stall of 0: CONTINUE goes
on, FAULT retires the page FAULTED and takes the track to FAULTED at rest, Gate Released, if reported, Page Retired, if
reported, and Track Fault queued in that order, a deferred Stop Track END answered ABORTED, a pending configuration applied
first (R55, R99, R102, R104). The context c already names the step after the gate (R37). Model choices: log entry 12. -/
def Obligations.GatesFollowTheLatch : Prop :=
  ∀ (s : State) (t : TrackId) (c : Playback) (index : Nat) (o timeout : Word32) (k : TriggerId) (action : GateAction)
    (report : Bool),
    let reachFrom (s : State) := s.reachGate t c index o k timeout action report
    let reach := reachFrom s
    (∀ f a v, s.triggers[k].latch = .fired f a v →
      reach = (s.consume k).queueEventIf report (.gateReleased t k .fired 0)) ∧
    (s.triggers[k].latch = .armed ∨ s.triggers[k].latch = .blocked →
      reach = { s with tracks := s.tracks.set t { s.tracks[t] with
        state := .stalled c ⟨index, o, k, action, report, s.timeline,
          if timeout = 0 then none else some (s.timeline + timeout.setWidth 48), none⟩ } }) ∧
    (s.triggers[k].latch = .disarmed → action = .continue →
      reach = s.queueEventIf report (.gateReleased t k .timeout 0)) ∧
    (s.triggers[k].latch = .disarmed → action = .fault → s.isOpen = true → s.tracks[t].pendingConfig = none →
      let reported := if report then s.events.store (.gateReleased t k .timeout 0) else s.events
      let retired := if s.tracks[t].reportRetired
        then reported.store (.pageRetired t c.page s.timeline .faulted c.repsPlayed) else reported
      reach = { s with
        tracks := s.tracks.set t { s.tracks[t] with
          state := .faulted, hold := false, looping := false, stopRequest := false }
        pages := s.pages.set c.page s.pages[c.page].leave
        events := retired.store (.trackFault t .gateTimeout s.timeline)
        lines := reach.lines, link := reach.link } ∧
      Link.Answered s.link reach.link (.stopEnd t) (abortedReply (.stopEnd t)) ∧
        ∀ l : LineId, reach.lines[l] = if s.tracks[t].group.getLsbD l then s.lines[l].toRest else s.lines[l]) ∧
    ∀ (s' : State) (q : PendingConfig), s.triggers[k].latch = .disarmed → action = .fault → s.Applied s' t q →
      reach = reachFrom s'

/-- A STALLED track leaves its gate: at its expiry with CONTINUE, page time resumes at that tick with the stall g to now;
with FAULT, the page is retired FAULTED, the track FAULTED at rest, Track Fault queued, a deferred Stop Track END answered
ABORTED, a pending configuration applied first; released by a firing, it resumes at its resume tick. Gate Released, if
reported, comes before what follows (R55, R73, R100 to R102, R104). Model choices: log entries 3 and 12. -/
def Obligations.StalledTracksLeaveTheirGate : Prop :=
  ∀ (s : State) (t : TrackId) (c : Playback) (g : GateWait) (d : Nat), s.isOpen = true →
    s.tracks[t].state = .stalled c g →
    let w := s.afterPeriods d
    w.isOpen = true →
    let stall := w.timeline - g.reached
    let resumed (outcome : GateOutcome) : State :=
      ({ w with
        tracks := s.tracks.set t { s.tracks[t] with state := .playing { c with stall := c.stall + stall } }
        events := if g.report then s.events.store (.gateReleased t g.trigger outcome stall) else s.events }).playFrom t
          g.offset.toNat
    (s.dueAfter (.gateResume t) d → exec (.gateResume t) s = .next (resumed .fired)) ∧
    (s.dueAfter (.gateExpiry t) d → g.action = .continue → exec (.gateExpiry t) s = .next (resumed .timeout)) ∧
    (s.dueAfter (.gateExpiry t) d → g.action = .fault → s.tracks[t].pendingConfig = none →
      let reported := if g.report then s.events.store (.gateReleased t g.trigger .timeout stall) else s.events
      let retired := if s.tracks[t].reportRetired
        then reported.store (.pageRetired t c.page w.timeline .faulted c.repsPlayed) else reported
      ∃ u : State, exec (.gateExpiry t) s = .next u ∧
        u = { w with
          tracks := s.tracks.set t { s.tracks[t] with
            state := .faulted, hold := false, looping := false, stopRequest := false }
          pages := s.pages.set c.page s.pages[c.page].leave
          events := retired.store (.trackFault t .gateTimeout w.timeline)
          lines := u.lines, link := u.link } ∧
        Link.Answered w.link u.link (.stopEnd t) (abortedReply (.stopEnd t)) ∧
        ∀ l : LineId, u.lines[l] = if s.tracks[t].group.getLsbD l then s.lines[l].toRest else s.lines[l]) ∧
    ∀ (s' : State) (q : PendingConfig), s.dueAfter (.gateExpiry t) d → g.action = .fault → s.Applied s' t q →
      exec (.gateExpiry t) s = exec (.gateExpiry t) s'

/-! ## Triggers -/

/-- Arm Trigger on a DISARMED trigger and an INPUT line takes the configuration: an edge sense, or a level sense away from
its active level, is ARMED; a level sense at its active level fires at once with stamp and acceptance now; a trigger that is
not DISARMED and a line that is no input are refused BUSY, a field out of range BAD_VALUE (R87, R88). Disarm Trigger: a
DISARMED trigger changes nothing; with no consumers the latch alone becomes DISARMED; otherwise the latch first and then each
consumer in track number order, T0 first: a track ARMED on the trigger has its start cancelled, reason DISARMED, a deferred
reply answered ABORTED; a track STALLED at a gate leaves it at this tick as at its timeout, resuming with CONTINUE, FAULTED
with FAULT; the reply counts the tracks of each kind (R66, R69, R84, R94, R101 to R104). Model choices: log entries 1 and 12.
-/
def Obligations.TriggersAreArmedAndDisarmed : Prop :=
  (∀ (s : State) (tag : Byte) (k : TriggerId) (l : LineId) (sense count flags : Byte) (sn : Sense),
    s.isOpen = true → s.Executes 0x40 tag → Sense.ofByte sense = some sn → flags.toNat < 2 →
    let b := s.restartSilence
    let run := exec (.armTrigger tag (BitVec.ofNat 8 k.val) (BitVec.ofNat 8 l.val) sense count flags) s
    let config : TriggerConfig := ⟨l, sn, decide (count ≠ 0), count.toNat, flags.getLsbD 0⟩
    (s.triggers[k].latch ≠ .disarmed ∨ (∀ f e v c, s.lines[l].role ≠ .input f e v c) →
      run = .next (b.answered 0xC0 tag .busy (u8 k.val ++ u8 s.triggers[k].latch.code))) ∧
    ∀ filter capture sensed candidate, s.triggers[k].latch = .disarmed →
      s.lines[l].role = .input filter capture sensed candidate →
      let active := (sn = .levelHigh ∧ sensed = true) ∨ (sn = .levelLow ∧ sensed = false)
      (¬active →
        run = .next (({ b with triggers := s.triggers.set k ⟨.armed, some config⟩ }).answered 0xC0 tag .ok
          (u8 k.val ++ u8 1))) ∧
      (active →
        run = .next (({ b with
            triggers := s.triggers.set k ⟨.fired s.timeline s.timeline false, some config⟩
            events := if flags.getLsbD 0 then s.events.store (.triggerFired k l s.timeline 0) else s.events }).answered
          0xC0 tag .ok (u8 k.val ++ u8 2)))) ∧
  (∀ (s : State) (tag line sense count flags : Byte) (k : TriggerId), s.isOpen = true → s.Executes 0x40 tag →
    16 ≤ line.toNat ∨ 5 ≤ sense.toNat ∨ 2 ≤ flags.toNat →
    exec (.armTrigger tag (BitVec.ofNat 8 k.val) line sense count flags) s =
      .next (s.restartSilence.answered 0xC0 tag .badValue (u8 k.val ++ u8 s.triggers[k].latch.code))) ∧
  (∀ (s : State) (tag : Byte) (k : TriggerId), s.isOpen = true → s.Executes 0x41 tag →
    let b := s.restartSilence
    let run := exec (.disarmTrigger tag (BitVec.ofNat 8 k.val)) s
    let disarmed := s.triggers.set k { s.triggers[k] with latch := .disarmed }
    (s.triggers[k].latch = .disarmed → run = .next (b.answered 0xC1 tag .ok (zeros 3))) ∧
    (s.triggers[k].latch ≠ .disarmed → s.consumers k = [] →
      run = .next (({ b with triggers := disarmed }).answered 0xC1 tag .ok (u8 k.val ++ u8 0 ++ u8 0))) ∧
    (∀ (t : TrackId) (c : Playback) (g : GateWait), s.triggers[k].latch ≠ .disarmed → s.consumers k = [t] →
      s.tracks[t].state = .stalled c g → g.action = .continue →
      let stall := s.timeline - g.reached
      let resumed : State := { b with
        triggers := disarmed
        tracks := s.tracks.set t { s.tracks[t] with state := .playing { c with stall := c.stall + stall } }
        events := if g.report then s.events.store (.gateReleased t g.trigger .timeout stall) else s.events }
      run = .next ((resumed.playFrom t g.offset.toNat).answered 0xC1 tag .ok (u8 k.val ++ u8 0 ++ u8 1))) ∧
    (∀ (t : TrackId) (offset : Word32) (reply : Bool), s.triggers[k].latch ≠ .disarmed → s.consumers k = [t] →
      s.tracks[t].state = .armed ⟨.onTrigger k offset, reply⟩ →
      ∃ u : State, run = .next (u.answered 0xC1 tag .ok (u8 k.val ++ u8 1 ++ u8 0)) ∧ u.triggers = disarmed ∧
        u.tracks[t].state = .idle ∧ u.tracks[t].queue = s.tracks[t].queue ∧ u.lines = s.lines ∧ u.pages = s.pages ∧
        u.events = s.events.store (.startCancelled t .disarmed) ∧
        ∀ v : TrackId, v ≠ t → u.tracks[v] = s.tracks[v]) ∧
    let starts (t : TrackId) : Bool := match s.tracks[t].state with
      | .armed ⟨.onTrigger j _, _⟩ => j == k
      | _ => false
    let gates (t : TrackId) : Bool := match s.tracks[t].state with
      | .stalled _ g => g.trigger == k && g.resume.isNone
      | _ => false
    s.consumers k = ((List.finRange 8).filter fun t => starts t || gates t) ∧
      (s.triggers[k].latch ≠ .disarmed →
        run = .next (((s.consumers k).foldl (fun (u : State) t => u.dismiss k t) { b with triggers := disarmed }).answered 0xC1 tag .ok
          (u8 k.val ++ u8 ((List.finRange 8).countP starts) ++ u8 ((List.finRange 8).countP gates))))) ∧
  ∀ (s : State) (k : TriggerId) (t : TrackId), s.isOpen = true →
    let u := s.dismiss k t
    (∀ (offset : Word32) (reply : Bool), s.tracks[t].state = .armed ⟨.onTrigger k offset, reply⟩ →
      u = { s with
        tracks := s.tracks.set t { s.tracks[t] with
          state := .idle, hold := false, looping := false, stopRequest := false, pendingConfig := none }
        events := s.events.store (.startCancelled t .disarmed)
        link := u.link } ∧
      Link.Answered s.link u.link (.start t) (abortedReply (.start t))) ∧
    ∀ (c : Playback) (g : GateWait), s.tracks[t].state = .stalled c g → g.trigger = k → g.resume = none →
      let stall := s.timeline - g.reached
      let reported := if g.report then s.events.store (.gateReleased t k .timeout stall) else s.events
      (g.action = .continue →
        u = ({ s with
          tracks := s.tracks.set t { s.tracks[t] with state := .playing { c with stall := c.stall + stall } }
          events := reported }).playFrom t g.offset.toNat) ∧
      (g.action = .fault → s.tracks[t].pendingConfig = none →
        let retired := if s.tracks[t].reportRetired
          then reported.store (.pageRetired t c.page s.timeline .faulted c.repsPlayed) else reported
        u = { s with
          tracks := s.tracks.set t { s.tracks[t] with
            state := .faulted, hold := false, looping := false, stopRequest := false }
          pages := s.pages.set c.page s.pages[c.page].leave
          events := retired.store (.trackFault t .gateTimeout s.timeline)
          lines := u.lines, link := u.link } ∧
        Link.Answered s.link u.link (.stopEnd t) (abortedReply (.stopEnd t)) ∧
        ∀ l : LineId, u.lines[l] = if s.tracks[t].group.getLsbD l then s.lines[l].toRest else s.lines[l]) ∧
      ∀ (s' : State) (q : PendingConfig), g.action = .fault → s.Applied s' t q → u = s'.dismiss k t

/-- An accepted edge at a trigger, by its latch: DISARMED ignores it; ARMED fires on an edge of its sense and ignores
another; BLOCKED becomes ARMED on an edge that is not of its sense; that one of its sense leaves it unchanged is the model's
choice for a case that cannot occur; FIRED sets the overrun flag on the first edge of its sense, with one Trigger Overrun,
and ignores every further one (R89, R93). Which edges match each sense, and the active level of the level senses, are as the
table of R86 gives them. A firing with stamp f and acceptance c queues Trigger Fired, if its report flag asks for it, with
the number of tracks released; it is held while no track waits, and otherwise releases every consumer with its one stamp and
is consumed: an armed start becomes TIMED at f plus its offset, or at c plus 4 with LATE set; a gate resumes at c plus 4 (R90
to R92). Model choices: log entry 24. -/
def Obligations.EdgesFireAndReleaseEveryConsumer : Prop :=
  (∀ (s : State) (k : TriggerId) (rising : Bool) (f c : Stamp),
    let after := s.edgeAtTrigger rising f c k
    (s.triggers[k].config = none → after = s) ∧
    ∀ g : TriggerConfig, s.triggers[k].config = some g →
      let matching := g.sense.matchesEdge rising = true
      (s.triggers[k].latch = .disarmed → after = s) ∧
      (s.triggers[k].latch = .armed → (matching → after = s.fire k g f c) ∧ (¬matching → after = s)) ∧
      (s.triggers[k].latch = .blocked →
        (matching → after = s) ∧ (¬matching → after = { s with triggers := s.triggers.set k ⟨.armed, some g⟩ })) ∧
      ∀ f0 c0 overrun, s.triggers[k].latch = .fired f0 c0 overrun →
        (¬matching ∨ overrun = true → after = s) ∧
        (matching → overrun = false →
          after = ({ s with triggers := s.triggers.set k ⟨.fired f0 c0 true, some g⟩ }).queueEvent (.triggerOverrun k f))) ∧
  ((∀ rising, Sense.rise.matchesEdge rising = rising) ∧ (∀ rising, Sense.fall.matchesEdge rising = !rising) ∧
    (∀ rising, Sense.either.matchesEdge rising = true) ∧ (∀ rising, Sense.levelHigh.matchesEdge rising = rising) ∧
    ∀ rising, Sense.levelLow.matchesEdge rising = !rising) ∧
  (Sense.rise.activeLevel = none ∧ Sense.fall.activeLevel = none ∧ Sense.either.activeLevel = none ∧
    Sense.levelHigh.activeLevel = some true ∧ Sense.levelLow.activeLevel = some false) ∧
  ∀ (s : State) (k : TriggerId) (g : TriggerConfig) (f c : Stamp),
    let fired := s.fire k g f c
    (s.consumers k = [] →
      fired = ({ s with triggers := s.triggers.set k { s.triggers[k] with latch := .fired f c false } }).queueEventIf
        g.report (.triggerFired k g.line f 0)) ∧
    (s.consumers k ≠ [] →
      (∀ t : TrackId, t ∉ s.consumers k → fired.tracks[t] = s.tracks[t]) ∧
      (∀ (t : TrackId) (offset : Word32) (reply : Bool), s.tracks[t].state = .armed ⟨.onTrigger k offset, reply⟩ →
        fired.tracks[t] = { s.tracks[t] with state := .armed ⟨
          if 0 ≤ (f + offset.setWidth 48 - (c + 4)).toInt then .timed (f + offset.setWidth 48) false
          else .timed (c + 4) true, reply⟩ }) ∧
      (∀ (t : TrackId) (p : Playback) (w : GateWait), s.tracks[t].state = .stalled p w → w.trigger = k →
        w.resume = none →
        fired.tracks[t] = { s.tracks[t] with state := .stalled p { w with expiry := none, resume := some (c + 4) } }) ∧
      fired = { s with
        tracks := fired.tracks, triggers := fired.triggers
        events := if g.report ∧ s.isOpen then s.events.store (.triggerFired k g.line f (s.consumers k).length)
          else s.events } ∧
      (s.triggers[k].config = some g →
        let stands := (g.sense = .levelHigh ∧ s.lines[g.line].sensedLevel = true) ∨
          (g.sense = .levelLow ∧ s.lines[g.line].sensedLevel = false)
        let left : TriggerConfig := if g.limited then { g with remaining := g.remaining - 1 } else g
        (g.limited = true → g.remaining = 1 → fired.triggers = s.triggers.set k ⟨.disarmed, some left⟩) ∧
        ((g.limited = true → 1 < g.remaining) →
          (stands → fired.triggers = s.triggers.set k ⟨.blocked, some left⟩) ∧
          (¬stands → fired.triggers = s.triggers.set k ⟨.armed, some left⟩)))) ∧
    ∀ t : TrackId, t ∈ s.consumers k ↔
      (∃ (offset : Word32) (reply : Bool), s.tracks[t].state = .armed ⟨.onTrigger k offset, reply⟩) ∨
        ∃ (p : Playback) (w : GateWait), s.tracks[t].state = .stalled p w ∧ w.trigger = k ∧ w.resume = none

/-- Consumption of a firing: a LIMITED count falls by 1 and disarms the trigger at 0; otherwise an edge sense is ARMED again,
a level sense BLOCKED while its line stands at the active level and ARMED when it does not (R92). -/
def Obligations.ConsumptionEndsTheFiring : Prop :=
  ∀ (s : State) (k : TriggerId) (c : TriggerConfig), s.triggers[k].config = some c →
    let left : TriggerConfig := if c.limited then { c with remaining := c.remaining - 1 } else c
    let stands := (c.sense = .levelHigh ∧ s.lines[c.line].sensedLevel = true) ∨
      (c.sense = .levelLow ∧ s.lines[c.line].sensedLevel = false)
    (c.limited = true → c.remaining = 1 → s.consume k = { s with triggers := s.triggers.set k ⟨.disarmed, some left⟩ }) ∧
    ((c.limited = true → 1 < c.remaining) →
      (stands → s.consume k = { s with triggers := s.triggers.set k ⟨.blocked, some left⟩ }) ∧
      (¬stands → s.consume k = { s with triggers := s.triggers.set k ⟨.armed, some left⟩ }))

/-- When each of the part's own actions is due: a TIMED start at its start time (R67), a release start at its own (R77), the
actions of a PLAYING track at b plus o plus a, o the least of its pulse ends, its next step's offset and the period (R33,
R34), a gate's end at its expiry (R101) and the resumption of a released track at its resume tick (R100), an edge at its
stamp plus the filter, after those of lower lines, unless the sample being taken accepts it (R123, R135), the discard of a
held firing at its acceptance time plus 2^46 (R90), the missing-pulse expiry at base plus interval plus window (R114); the
silence timer's, the waiting read's and the start-up interval's end when they have run down (R141, R181, R185), the gap
timeout 32 byte-times after the last byte (R165), the next frame and the reset that a Reset Part asked for when TXD is idle
(R174, R184). A tick ahead of now comes when the divider has counted that far, and not before (R106, R107). A timed command
that is not scheduled changes nothing. The discard of a firing leaves the trigger BLOCKED while a level sense's line stands
at its active level, ARMED otherwise, its count kept (R90). Model choices: log entries 3, 9, 21, 23, 25, 29 and 32. -/
def Obligations.TimedActionsAreDueAtTheirMoment : Prop :=
  (∀ (s : State) (x : Stamp), s.prescale < s.divider → s.phase ≠ .reset →
    (0 < (x - s.timeline).toInt → (s.afterPeriods (s.periodsTo x)).timeline = x ∧
      ∀ n, n < s.periodsTo x → (s.afterPeriods n).timeline ≠ x) ∧
    (¬0 < (x - s.timeline).toInt → s.periodsTo x = 0)) ∧
  (∀ (s : State) (t : TrackId),
    (s.due (.armedStartEffect t) = match s.tracks[t].state with
      | .armed ⟨.timed start _, _⟩ => some (s.periodsTo start)
      | _ => none) ∧
    (s.due (.releaseStartEffect t) = match s.tracks[t].state with
      | .holding (some start) => some (s.periodsTo start)
      | _ => none) ∧
    (s.due (.gateExpiry t) = match s.tracks[t].state with
      | .stalled _ ⟨_, _, _, _, _, _, some expiry, none⟩ => some (s.periodsTo expiry)
      | _ => none) ∧
    (s.due (.gateResume t) = match s.tracks[t].state with
      | .stalled _ ⟨_, _, _, _, _, _, _, some resume⟩ => some (s.periodsTo resume)
      | _ => none) ∧
    ((∀ c, s.tracks[t].state ≠ .playing c) → s.due (.trackActionTick t) = none) ∧
    ∀ (c : Playback) (o : Word32), s.tracks[t].state = .playing c →
      let period := s.pages[c.page].period
      let next := (s.pages[c.page].steps.drop c.nextStep).head?
      o = period ∨ (∃ e ∈ c.pulseEnds, e.offset = o) ∨ next.map Step.offset = some o →
      o.toNat ≤ period.toNat → (∀ e ∈ c.pulseEnds, o.toNat ≤ e.offset.toNat) →
      (∀ st, next = some st → o.toNat ≤ st.offset.toNat) →
      s.due (.trackActionTick t) = some (s.periodsTo (c.repStart + o.setWidth 48 + c.stall))) ∧
  (∀ (s : State) (l : LineId),
    let accepted (m : LineId) : Option Nat := match s.lines[m].role with
      | .input filter _ _ (some f) =>
        if s.sample.accepted.getLsbD m then none else some (s.periodsTo (f + filter.setWidth 48))
      | _ => none
    (accepted l = none → s.due (.edgeAcceptance l) = none) ∧
    ∀ d, accepted l = some d →
      ((∀ m e, m < l → accepted m = some e → d < e) → s.due (.edgeAcceptance l) = some d) ∧
      ((∃ m e, m < l ∧ accepted m = some e ∧ e ≤ d) → s.due (.edgeAcceptance l) = none)) ∧
  (∀ (s : State) (k : TriggerId) (straps : BitVec 2),
    let idle : Nat := match s.link.txd with
      | some frame => frame.remaining
      | none => 0
    let toSend : Prop := s.resetPart ≠ .replyTaken ∧ (s.link.notices ≠ [] ∨ s.link.replies ≠ [] ∨
      (s.isOpen = true ∧ s.resetPart = .none ∧ ∃ e ∈ s.events.queue, e.sent = false))
    (s.due (.firingAgeDiscard k) = match s.triggers[k].latch with
      | .fired _ c _ => some (s.periodsTo (c + BitVec.ofNat 48 (2 ^ 46)))
      | _ => none) ∧
    (s.due .missingPulseExpiry = s.reference.base.map fun base =>
      s.periodsTo (base + s.reference.interval.setWidth 48 + s.reference.window.setWidth 48)) ∧
    s.due .keepaliveExpiry = s.session.silence ∧
    (s.due .journalWaitExpiry = s.journal.waiting.map fun w => w.remaining) ∧
    (s.due .startUpEnd = match s.phase with
      | .startUp remaining => some remaining
      | _ => none) ∧
    (s.due .gapTimeout = match s.link.assembler with
      | .length | .body => some (gapPeriods s.linkRate - s.link.sinceByte)
      | _ => none) ∧
    (toSend → s.due .transmitNextFrame = some idle) ∧ (¬toSend → s.due .transmitNextFrame = none) ∧
    s.due .resetRequest = (if s.resetPart = .replyTaken then some idle else none) ∧
    s.due (.resetEnd straps) = if s.phase = .reset ∧ s.cause = .request then some 0 else none) ∧
  (∀ (s : State) (c : Instr), c ∈ timers ∨ c = .transmitNextFrame → s.due c = none → exec c s = .next s) ∧
  ∀ (s : State) (k : TriggerId) (g : TriggerConfig) (f c : Stamp) (overrun : Bool) (d : Nat),
    s.triggers[k] = ⟨.fired f c overrun, some g⟩ → s.dueAfter (.firingAgeDiscard k) d →
    let w := s.afterPeriods d
    let stands := (g.sense = .levelHigh ∧ s.lines[g.line].sensedLevel = true) ∨
      (g.sense = .levelLow ∧ s.lines[g.line].sensedLevel = false)
    d = s.periodsTo (c + BitVec.ofNat 48 (2 ^ 46)) ∧
    (stands → exec (.firingAgeDiscard k) s = .next { w with triggers := s.triggers.set k ⟨.blocked, some g⟩ }) ∧
    (¬stands → exec (.firingAgeDiscard k) s = .next { w with triggers := s.triggers.set k ⟨.armed, some g⟩ })

/-! ## Lines -/

/-- Configure Line on a line that no track owns and no trigger holds: UNUSED, OUTPUT driven to the rest level, INPUT from
another role with the pin's level sensed and no candidate, INPUT again keeping sensed level and, with the same filter, the
candidate, which another filter takes afresh from the pin and a filter of 0 then accepts before the reply, which gives the
level after it (R123, R135); an owned or a held line is refused BUSY, a value out of range BAD_VALUE (R126, R127). Model
choices: log entries 1, 12, 15 and 30. -/
def Obligations.ConfigureLineSetsTheRole : Prop :=
  ∀ (s : State) (tag : Byte) (l : LineId), s.isOpen = true → s.Executes 0x18 tag →
    let b := s.restartSilence
    let run (role rest filter capture : Byte) :=
      exec (.configureLine tag (BitVec.ofNat 8 l.val) role rest filter capture) s
    let refused (status : Status) := b.answered 0x98 tag status (u8 l.val ++ u8 s.lines[l].role.code ++ u8 0)
    let set (ln : Line) : State := { b with lines := s.lines.set l ln }
    let valid (role rest filter capture : Byte) : Prop :=
      role.toNat ≤ 2 ∧ rest.toNat ≤ 1 ∧ capture.toNat ≤ 3 ∧ (role.toNat ≠ 2 → filter = 0 ∧ capture = 0)
    let free := (∀ t : TrackId, s.tracks[t].group.getLsbD l = false) ∧
      ∀ (k : TriggerId) (c : TriggerConfig), s.triggers[k].config = some c → c.line = l → s.triggers[k].latch = .disarmed
    (∀ role rest filter capture, ¬valid role rest filter capture →
      run role rest filter capture = .next (refused .badValue)) ∧
    (∀ role rest filter capture, valid role rest filter capture → ¬free →
      run role rest filter capture = .next (refused .busy)) ∧
    (free → ∀ (rest : Bool) (filter : Byte) (capture : CaptureEdges),
      let level := BitVec.ofNat 8 rest.toNat
      let edges := BitVec.ofNat 8 capture.code
      let pin := s.pinLevels.getLsbD l
      run 0 level 0 0 = .next ((set ⟨rest, .unused⟩).answered 0x98 tag .ok (u8 l.val ++ u8 0 ++ u8 0)) ∧
      run 1 level 0 0 =
        .next ((set ⟨rest, .output rest⟩).answered 0x98 tag .ok (u8 l.val ++ u8 1 ++ u8 rest.toNat)) ∧
      ((∀ f e v c, s.lines[l].role ≠ .input f e v c) →
        run 2 level filter edges =
          .next ((set ⟨rest, .input filter capture pin none⟩).answered 0x98 tag .ok
            (u8 l.val ++ u8 2 ++ u8 pin.toNat))) ∧
      ∀ before e sensed candidate, s.lines[l].role = .input before e sensed candidate →
        let kept : Option Stamp :=
          if filter = before then candidate else if pin = sensed then none else some s.timeline
        let taken := set ⟨rest, .input filter capture sensed kept⟩
        (filter ≠ 0 ∨ kept = none →
          run 2 level filter edges = .next (taken.answered 0x98 tag .ok (u8 l.val ++ u8 2 ++ u8 sensed.toNat))) ∧
        (filter = 0 → kept ≠ none →
          run 2 level filter edges =
            .next (taken.endSample.answered 0x98 tag .ok (u8 l.val ++ u8 2 ++ u8 (!sensed).toNat))))

/-- The rows INPUT_TRANSITION and EDGE_ACCEPTANCE that stand one behind the other and can be one sample are one: the sample
goes on with the level of a line, or with an acceptance due now, an acceptance not scheduled passed over. It shows each line
once, and no line at the level its acceptance excludes; else the row is of the next sample. A sample of an input pin that
differs from the sensed level takes a candidate with stamp now, one that equals it drops the candidate; on a line that is no
input the level on the pin alone is kept (R120, R123). At its end a sample accepts what its rows EDGE_ACCEPTANCE told, every
candidate of filter 0, and with one of these every candidate that is due, in line number order, so that no candidate of
filter 0 stands after it (R123, R135). A candidate is accepted when it has held for the filter: the sensed level changes, the
candidate is cleared, and the edge reaches the journal, if the capture edges name its direction, and every trigger bound to
the line, each once, in one order of them, with acceptance time stamp plus filter (R89, R123 to R125, R154). Model choices:
log entries 3, 5, 15, 23 and 29. -/
def Obligations.SamplesMakeEdges : Prop :=
  (∀ s : State,
    let unfiltered (m : LineId) : Bool := match s.lines[m].role with
      | .input filter _ _ (some _) => decide (filter = 0)
      | _ => false
    let due (m : LineId) : Bool := match s.lines[m].role with
      | .input filter _ _ (some f) => decide (filter = 0 ∨ ¬0 < (f + filter.setWidth 48 - s.timeline).toInt)
      | _ => false
    let told : State := { s with sample := ⟨0, 0⟩ }
    let accept (accepts : LineId → Bool) : State := ((List.finRange 16).filter accepts).foldl State.acceptEdge told
    ((∀ m, unfiltered m = false) → s.endSample = accept fun m => s.sample.accepted.getLsbD m) ∧
    ((∃ m, unfiltered m = true) → s.endSample = accept fun m => s.sample.accepted.getLsbD m || due m) ∧
    ∀ (m : LineId) (capture : CaptureEdges) (sensed : Bool) (f : Stamp),
      s.endSample.lines[m].role ≠ .input 0 capture sensed (some f)) ∧
  (∀ (s : State) (l : LineId) (level : Bool) (rest : List Instr),
    s.rowsGoOn [] = false ∧ s.rowsGoOn (.inputTransition l level :: rest) = true ∧
    (s.due (.edgeAcceptance l) = none → s.rowsGoOn (.edgeAcceptance l :: rest) = s.rowsGoOn rest) ∧
    (∀ d, s.due (.edgeAcceptance l) = some d → s.rowsGoOn (.edgeAcceptance l :: rest) = decide (d = 0)) ∧
    ∀ c : Instr, (∀ m v, c ≠ .inputTransition m v) → (∀ m, c ≠ .edgeAcceptance m) → s.rowsGoOn (c :: rest) = false) ∧
  (∀ (s : State) (l : LineId) (level : Bool),
    let pins := if level then s.pinLevels ||| BitVec.twoPow 16 l else s.pinLevels &&& ~~~BitVec.twoPow 16 l
    let shown : Sample := ⟨s.sample.shown ||| BitVec.twoPow 16 l, s.sample.accepted⟩
    let run := exec (.inputTransition l level) s
    let ended (u : State) : State := if u.rowsGoOn s.pending then u else u.endSample
    (s.sample.shown.getLsbD l = true → run = exec (.inputTransition l level) s.endSample) ∧
    (s.sample.shown.getLsbD l = false →
      ((∀ f e v c, s.lines[l].role ≠ .input f e v c) →
        run = .next (ended { s with pinLevels := pins, sample := shown })) ∧
      ∀ (filter : Byte) (capture : CaptureEdges) (sensed : Bool) (held : Option Stamp),
        s.lines[l].role = .input filter capture sensed held →
        let set (candidate : Option Stamp) : State :=
          { s with pinLevels := pins, sample := shown, lines := s.lines.set l { s.lines[l] with
            role := .input filter capture sensed candidate } }
        (level ≠ sensed → held = none → run = .next (ended (set (some s.timeline)))) ∧
        (∀ f, level ≠ sensed → held = some f → run = .next (ended (set (some f)))) ∧
        (level = sensed → s.sample.accepted.getLsbD l = false → run = .next (ended (set none))) ∧
        (level = sensed → s.sample.accepted.getLsbD l = true → run = exec (.inputTransition l level) s.endSample))) ∧
  (∀ (s : State) (l : LineId) (d : Nat), s.dueAfter (.edgeAcceptance l) d →
    let w := s.afterPeriods d
    let joined : State :=
      { w with sample := ⟨w.sample.shown, w.sample.accepted ||| BitVec.twoPow 16 l⟩ }
    exec (.edgeAcceptance l) s = .next (if joined.rowsGoOn s.pending then joined else joined.endSample)) ∧
  (∀ (s : State) (l : LineId) (d : Nat), s.dueAfter (.edgeAcceptance l) d → s.sample = ⟨0, 0⟩ →
    (∀ (m : LineId) (capture : CaptureEdges) (sensed : Bool) (f : Stamp),
      s.lines[m].role ≠ .input 0 capture sensed (some f)) →
    (∀ m v rest, s.pending ≠ .inputTransition m v :: rest) → (∀ m rest, s.pending ≠ .edgeAcceptance m :: rest) →
    exec (.edgeAcceptance l) s = .next ((s.afterPeriods d).acceptEdge l)) ∧
  ∀ (s : State) (l : LineId) (filter : Byte) (capture : CaptureEdges) (sensed : Bool) (f : Stamp),
    s.lines[l].role = .input filter capture sensed (some f) →
    let bound (k : TriggerId) : Prop :=
      ∃ c : TriggerConfig, s.triggers[k].config = some c ∧ c.line = l ∧ s.triggers[k].latch ≠ .disarmed
    let accepted : State := { s with
      lines := s.lines.set l { s.lines[l] with role := .input filter capture (!sensed) none }
      choices := s.choices + 1 }
    let record (u : State) := u.recordEdge l (!sensed) f
    let trigger (k : TriggerId) (u : State) := u.edgeAtTrigger (!sensed) f (f + filter.setWidth 48) k
    ((∀ k, ¬bound k) →
      (capture.names (!sensed) = false → s.acceptEdge l = accepted) ∧
      (capture.names (!sensed) = true → s.acceptEdge l = record accepted)) ∧
    (∃ order : List (Option TriggerId), order.Nodup ∧ (∀ k, some k ∈ order ↔ bound k) ∧
      (none ∈ order ↔ capture.names (!sensed) = true) ∧
      s.acceptEdge l = order.foldl (fun u receiver => match receiver with
        | none => record u
        | some k => trigger k u) accepted) ∧
    ∀ k, bound k → (∀ j, bound j → j = k) →
      (capture.names (!sensed) = false → s.acceptEdge l = trigger k accepted) ∧
      (capture.names (!sensed) = true →
        s.acceptEdge l = trigger k (record accepted) ∨ s.acceptEdge l = record (trigger k accepted))

/-! ## Timebase and reference -/

/-- The reads of the timebase, the reference unit, the lines and the triggers change nothing and report their records: Read
Time, Read Reference, Read Lines with four bytes a line, Read Trigger on a configured trigger in each of its latch states and
on one that was never configured (R95, R109, R116, R128, R188). Model choices: log entries 1 and 14. -/
def Obligations.UnitReadsReportTheirRecords : Prop :=
  ∀ (s : State) (tag : Byte), s.isOpen = true →
    let b := s.restartSilence
    let r := s.reference
    let bit (x : Bool) (n : Nat) : Nat := if x then 2 ^ n else 0
    (s.Executes 0x10 tag →
      exec (.readTime tag) s =
        .next (b.answered 0x90 tag .ok (le48 s.timeline ++ u8 s.divider ++ le32 r.epoch ++ u8 r.status.code))) ∧
    (s.Executes 0x13 tag →
      let expiry := r.base.map fun x => x + r.interval.setWidth 48 + r.window.setWidth 48
      let waiting := (List.finRange 8).countP fun t : TrackId => match s.tracks[t].state with
        | .armed ⟨.onEpoch _ _, _⟩ => true
        | _ => false
      exec (.readReference tag) s =
        .next (b.answered 0x93 tag .ok
          (le48 s.timeline ++ u8 r.status.code ++ le32 r.interval ++ le16 r.window ++ le32 r.epoch ++
            le48 (r.lastPulse.getD 0) ++ u8 r.good ++ le48 (r.base.getD 0) ++ le48 (r.measured.getD 0) ++
            le48 (expiry.getD 0) ++ u8 waiting ++
            u8 (bit r.lastPulse.isSome 0 + bit r.base.isSome 1 + bit r.measured.isSome 2 + bit r.base.isSome 3)))) ∧
    (s.Executes 0x19 tag →
      exec (.readLines tag) s =
        .next (b.answered 0x99 tag .ok (le48 s.timeline ++ (List.finRange 16).flatMap fun l : LineId =>
          (match s.lines[l].role with
            | .unused => u8 (bit s.lines[l].rest 4)
            | .output driven => u8 (1 + bit s.lines[l].rest 4 + bit driven 5)
            | .input _ capture sensed candidate =>
              u8 (2 + 4 * capture.code + bit s.lines[l].rest 4 + bit sensed 5 + bit candidate.isSome 6)) ++
          u8 (((List.finRange 8).find? fun t : TrackId => s.tracks[t].group.getLsbD l).elim 0 fun t => 128 + t.val) ++
          (match s.lines[l].role with
            | .input filter _ _ _ => [filter]
            | .unused => u8 0
            | .output _ => u8 0) ++
          u8 (((List.finRange 4).map fun k : TriggerId =>
            bit (decide (s.triggers[k].latch ≠ .disarmed) && (s.triggers[k].config.map TriggerConfig.line == some l))
              k.val).sum)))) ∧
    (∀ k : TriggerId, s.Executes 0x42 tag → s.triggers[k].config = none → s.triggers[k].latch = .disarmed →
      s.consumers k = [] →
      exec (.readTrigger tag (BitVec.ofNat 8 k.val)) s =
        .next (b.answered 0xC2 tag .ok (u8 k.val ++ le48 s.timeline ++ zeros 21))) ∧
    ∀ (k : TriggerId) (c : TriggerConfig), s.Executes 0x42 tag → s.triggers[k].config = some c →
      let config (overrun : Bool) := u8 (1 + bit (!c.limited) 1 + bit c.report 2 + bit overrun 3) ++ u8 c.line.val ++
        u8 c.sense.code ++ u8 c.remaining ++ u8 s.lines[c.line].sensedLevel.toNat
      let tracks (keep : TrackId → Bool) : Nat :=
        ((List.finRange 8).map fun t : TrackId => bit (keep t) t.val).sum
      (s.triggers[k].latch = .disarmed ∨ s.triggers[k].latch = .armed ∨ s.triggers[k].latch = .blocked →
        exec (.readTrigger tag (BitVec.ofNat 8 k.val)) s =
          .next (b.answered 0xC2 tag .ok
            (u8 k.val ++ le48 s.timeline ++ u8 s.triggers[k].latch.code ++ config false ++ zeros 12 ++
              u8 (s.consumers k).length ++ u8 (tracks fun t => (s.tracks[t].waitsOn k).isSome) ++
              u8 (tracks fun t => s.tracks[t].waitsOn k == some .gate)))) ∧
      ∀ f a overrun, s.triggers[k].latch = .fired f a overrun → s.consumers k = [] →
        exec (.readTrigger tag (BitVec.ofNat 8 k.val)) s =
          .next (b.answered 0xC2 tag .ok
            (u8 k.val ++ le48 s.timeline ++ u8 2 ++ config overrun ++ le48 f ++ le48 a ++ zeros 3))

/-- Set Tick with every track DISABLED or IDLE, every trigger DISARMED and the journal empty changes the divider, the
timeline keeping its value and counting afresh from this period on, the model's choice within a tick, and restarts reference
checking; the divider in force changes nothing; Set Reference with no track armed on an epoch stores interval and window and
restarts checking in FREE or SEEKING (R110, R115). Model choices: log entries 1, 12 and 33. -/
def Obligations.RatesAreSetWhenNothingDependsOnThem : Prop :=
  ∀ (s : State) (tag : Byte), s.isOpen = true →
    let b := s.restartSilence
    let r := s.reference
    (s.Executes 0x11 tag → ∀ divider : Byte, divider.toNat ∉ [1, 2, 4, 8, 16, 32, 64, 128] →
      exec (.setTick tag divider) s = .next (b.answered 0x91 tag .badValue (zeros 8))) ∧
    (s.Executes 0x11 tag → ∀ divider : Byte, divider.toNat ∈ [1, 2, 4, 8, 16, 32, 64, 128] →
      let quiet := (∀ t : TrackId, s.tracks[t].state = .disabled ∨ s.tracks[t].state = .idle) ∧
        (∀ k : TriggerId, s.triggers[k].latch = .disarmed) ∧ s.journal.records = []
      (quiet → divider.toNat = s.divider →
        exec (.setTick tag divider) s =
          .next (b.answered 0x91 tag .ok ([divider] ++ le48 s.timeline ++ u8 r.status.code))) ∧
      (quiet → divider.toNat ≠ s.divider →
        let checking : Reference := if r.status = .free then r
          else { r with status := .seeking, base := none, good := 0, measured := none }
        exec (.setTick tag divider) s =
          .next (({ b with divider := divider.toNat, prescale := 0, reference := checking }).answered 0x91 tag .ok
            ([divider] ++ le48 s.timeline ++ u8 checking.status.code))) ∧
      (¬quiet → exec (.setTick tag divider) s = .next (b.answered 0x91 tag .busy (zeros 8)))) ∧
    (s.Executes 0x12 tag → ∀ (interval : Word32) (window : Word16),
      ¬((interval = 0 ∧ window = 0) ∨ (1000 ≤ interval.toNat ∧ window.toNat < interval.toNat)) →
      exec (.setReference tag interval window) s = .next (b.answered 0x92 tag .badValue (zeros 8))) ∧
    (s.Executes 0x12 tag → ∀ (interval : Word32) (window : Word16),
      (interval = 0 ∧ window = 0) ∨ (1000 ≤ interval.toNat ∧ window.toNat < interval.toNat) →
      let free := ∀ t : TrackId, ∀ n o reply, s.tracks[t].state ≠ .armed ⟨.onEpoch n o, reply⟩
      let status : RefStatus := if interval = 0 then .free else .seeking
      (free →
        exec (.setReference tag interval window) s =
          .next (({ b with reference := ⟨r.epoch, r.lastPulse, status, interval, window, none, 0, none⟩ }).answered
            0x92 tag .ok (u8 r.status.code ++ u8 status.code ++ le48 s.timeline))) ∧
      (¬free → exec (.setReference tag interval window) s = .next (b.answered 0x92 tag .busy (zeros 8))))

/-- A pulse advances the epoch counter and is checked: unmeasured with no base; in window the good count rises, the second in
SEEKING locks; out of window it falls to 0, and LOCKED is lost. Tracks armed on the new epoch are released with the pulse
stamp (R68, R112, R113). A missing pulse clears the base; LOCKED is lost. A loss of lock, by a pulse or by a missing one,
takes the status to SEEKING, queues Reference Status and cancels every epoch start in track number order, each with Start
Cancelled, reason REFERENCE, its deferred reply answered ABORTED, its track IDLE with its queue kept (R66, R69, R114). With
no session open no event is kept (R150). Model choices: log entries 3, 10, 12 and 32. -/
def Obligations.ReferencePulsesAreChecked : Prop :=
  let lost (s u : State) (reference : Reference) (now : Stamp) : Prop :=
    let onEpoch (t : TrackId) : Bool := match s.tracks[t].state with
      | .armed ⟨.onEpoch _ _, _⟩ => true
      | _ => false
    let cancelled := (List.finRange 8).filter onEpoch
    u = { s with
      reference := reference, tracks := u.tracks
      events := if s.isOpen then cancelled.foldl (fun e t => e.store (.startCancelled t .reference))
        (s.events.store (.referenceStatus .seeking reference.epoch now)) else s.events
      link := (cancelled.foldl (fun v t => v.composeAborted (.start t)) s).link } ∧
    (∀ t : TrackId, onEpoch t = true → u.tracks[t] = { s.tracks[t] with
      state := .idle, hold := false, looping := false, stopRequest := false, pendingConfig := none }) ∧
    ∀ t : TrackId, onEpoch t = false → u.tracks[t] = s.tracks[t]
  (∀ s : State, s.phase ≠ .reset →
    let r := s.reference
    let now := s.timeline
    let counted : Reference := { r with epoch := r.epoch + 1, lastPulse := some now }
    let released (st : TrackState) : TrackState :=
      match st with
      | .armed ⟨.onEpoch n offset, reply⟩ =>
        if n = r.epoch + 1 then
          .armed ⟨if 4 ≤ offset.toNat then .timed (now + offset.setWidth 48) false else .timed (now + 4) true, reply⟩
        else st
      | other => other
    let after (r' : Reference) (events : EventUnit) : State :=
      { s with
        reference := r', events := events
        tracks := s.tracks.map fun tr => { tr with state := released tr.state } }
    (r.status = .free → exec .referencePulse s = .next (after counted s.events)) ∧
    (r.status ≠ .free → r.base = none →
      exec .referencePulse s = .next (after { counted with base := some now } s.events)) ∧
    ∀ base : Stamp, r.status ≠ .free → r.base = some base →
      let d := now - base
      let measured : Reference := { counted with base := some now, measured := some d }
      let inside := r.interval.toNat - r.window.toNat ≤ d.toNat ∧ d.toNat ≤ r.interval.toNat + r.window.toNat
      let good := min (r.good + 1) 255
      (inside → ¬(r.status = .seeking ∧ good = 2) →
        exec .referencePulse s = .next (after { measured with good := good } s.events)) ∧
      (inside → r.status = .seeking → good = 2 →
        exec .referencePulse s = .next (after { measured with good := good, status := .locked }
          (if s.isOpen then s.events.store (.referenceStatus .locked (r.epoch + 1) now) else s.events))) ∧
      (¬inside → r.status = .seeking →
        exec .referencePulse s = .next (after { measured with good := 0 } s.events)) ∧
      (¬inside → r.status = .locked →
        ∃ u : State, exec .referencePulse s = .next u ∧
          lost s u { measured with good := 0, status := .seeking } now)) ∧
  (∀ s : State, s.phase = .reset → exec .referencePulse s = .next s) ∧
  ∀ (s : State) (d : Nat), s.dueAfter .missingPulseExpiry d →
    let w := s.afterPeriods d
    (s.reference.status ≠ .locked →
      exec .missingPulseExpiry s = .next { w with reference := { s.reference with good := 0, base := none } }) ∧
    (s.reference.status = .locked →
      ∃ u : State, exec .missingPulseExpiry s = .next u ∧
        lost w u { s.reference with good := 0, base := none, status := .seeking } w.timeline)

/-! ## The capture journal -/

/-- Read Journal removes the acknowledged records, writes a pending gap into the room, clears the notice flag and returns the
oldest records; with nothing held and a wait it becomes the waiting read and takes a slot; more than held is refused, a
second read while one waits BUSY, a reserved byte that is not 0 BAD_VALUE with the fields of the model's choice (R137 to
R140, R168, R186). The wait's end answers OK with nothing, and the requests that wait besides it stay (R141, R172). Model
choices: log entries 1, 3, 12, 18 and 31. -/
def Obligations.ReadJournalAcknowledgesAndReturns : Prop :=
  (∀ (s : State) (tag : Byte) (ack : Word16) (maximum reserved : Byte) (wait : Word16), s.isOpen = true →
    s.Executes 0x48 tag →
    let refused (status : Status) := s.restartSilence.answered 0xC8 tag status
      (u16 s.journal.records.length ++ le32 ((s.journal.gap.map Gap.count).getD 0) ++ u8 0)
    (reserved ≠ 0 ∨ 14 < maximum.toNat ∨ 5000 < wait.toNat →
      exec (.readJournal tag ack maximum reserved wait) s = .next (refused .badValue)) ∧
    (reserved = 0 → maximum.toNat ≤ 14 → wait.toNat ≤ 5000 → s.journal.waiting ≠ none →
      exec (.readJournal tag ack maximum reserved wait) s = .next (refused .busy))) ∧
  (∀ (s : State) (tag : Byte) (ack : Word16) (maximum : Byte) (wait : Word16), s.isOpen = true → s.Executes 0x48 tag →
    maximum.toNat ≤ 14 → wait.toNat ≤ 5000 → s.journal.waiting = none →
    let b := s.restartSilence
    let j := s.journal
    let run := exec (.readJournal tag ack maximum 0 wait) s
    let left : List Record := match j.gap with
      | some g => if ack = 0 then j.records
        else j.records.drop ack.toNat ++ [⟨g.firstSeq, g.count, .gap, 0, g.firstStamp⟩]
      | none => j.records.drop ack.toNat
    let gap : Option Gap := if ack = 0 then j.gap else none
    (j.records.length < ack.toNat →
      run = .next (b.answered 0xC8 tag .badValue
        (u16 j.records.length ++ le32 ((j.gap.map Gap.count).getD 0) ++ u8 0))) ∧
    (ack.toNat ≤ j.records.length →
      (left ≠ [] ∨ wait = 0 →
        run = .next (({ b with journal := { j with records := left, gap := gap, notice := false } }).answered 0xC8 tag .ok
          (u16 left.length ++ le32 ((gap.map Gap.count).getD 0) ++ u8 (left.take maximum.toNat).length ++
            (left.take maximum.toNat).flatMap Record.bytes))) ∧
      (left = [] → wait ≠ 0 → 4 ≤ s.heldSlots →
        run = .next (b.answered 0xC8 tag .windowFull
          (u16 j.records.length ++ le32 ((j.gap.map Gap.count).getD 0) ++ u8 0))) ∧
      (left = [] → wait ≠ 0 → s.heldSlots < 4 →
        run = .next { b with
          journal := { j with
            records := [], gap := gap, notice := false, waiting := some ⟨maximum.toNat, wait.toNat * 100000⟩ }
          link := { s.link with awaiting := s.link.awaiting ++ [⟨.readJournal, tag⟩] } }))) ∧
  ∀ (s : State) (d : Nat), s.dueAfter .journalWaitExpiry d →
    let w := s.afterPeriods d
    ∃ u : State, exec .journalWaitExpiry s = .next u ∧
      u = { w with journal := { w.journal with waiting := none }, link := u.link } ∧
      Link.Answered w.link u.link .readJournal fun tag => ⟨0xC8, tag, .ok, 0, zeros 7⟩

/-- Set Journal stores a watermark from 0 to 256 and replies OK with it and the number of records held, touching nothing
else; above 256 it is refused BAD_VALUE and nothing changes, the fields of that reply being 0 by the model's choice (R188); 0
turns the notice off; the watermark is 0 after a reset and kept across session end (R143). Model choices: log entries 1 and
12. -/
def Obligations.SetJournalStoresTheWatermark : Prop :=
  (∀ (s : State) (tag : Byte) (watermark : Word16), s.isOpen = true → s.Executes 0x49 tag →
    (watermark.toNat ≤ 256 →
      exec (.setJournal tag watermark) s =
        .next (({ s.restartSilence with journal := { s.journal with watermark := watermark.toNat } }).answered 0xC9 tag .ok
          (le16 watermark ++ u16 s.journal.records.length))) ∧
    (256 < watermark.toNat →
      exec (.setJournal tag watermark) s = .next (s.restartSilence.answered 0xC9 tag .badValue (zeros 4)))) ∧
  (∀ s : State, s.journal.watermark = 0 → s.noticeJournal = s) ∧
  State.reset.journal.watermark = 0 ∧ (∀ (s : State) (c : ResetCause), (s.beginReset c).journal.watermark = 0) ∧
  ∀ s : State, s.endSession.journal.watermark = s.journal.watermark

/-- A capturing edge takes the next seq: it is recorded while fewer than 256 records are held, completing a waiting read and,
at the watermark, raising the notice; on a full journal it is dropped into the pending gap, whose count stops at 2^32-1
(R134, R136, R144). A read that waits is answered with it: OK, the records held, the gap count and the oldest records, at
most its maximum, in its slot; nothing else of the recording differs (R140, R141, R172). -/
def Obligations.CapturedEdgesAreRecordedOrDropped : Prop :=
  ∀ (s : State) (l : LineId) (rising : Bool) (f : Stamp),
    let j := s.journal
    let edge : Record := ⟨j.seq, 1, if rising then .rise else .fall, l, f⟩
    let recorded : Journal := { j with records := j.records ++ [edge], seq := j.seq + 1 }
    (j.records.length < 256 → j.waiting = none →
      ((j.watermark = 0 ∨ j.records.length + 1 < j.watermark ∨ j.notice = true ∨ s.isOpen = false) →
        s.recordEdge l rising f = { s with journal := recorded }) ∧
      (j.watermark ≠ 0 → j.watermark ≤ j.records.length + 1 → j.notice = false → s.isOpen = true →
        s.recordEdge l rising f =
          { s with
            journal := { recorded with notice := true }
            events := s.events.store (.journalNotice (j.records.length + 1)) })) ∧
    (∀ w, j.records.length < 256 → j.waiting = some w →
      let quiet : State := { s with journal := { j with waiting := none } }
      let given := recorded.records.take w.maximum
      ∃ u : State, s.recordEdge l rising f = u ∧ u = { quiet.recordEdge l rising f with link := u.link } ∧
        Link.Answered s.link u.link .readJournal fun tag =>
          ⟨0xC8, tag, .ok, 0, u16 (j.records.length + 1) ++ le32 ((j.gap.map Gap.count).getD 0) ++ u8 given.length ++
            given.flatMap Record.bytes⟩) ∧
    (256 ≤ j.records.length →
      (j.gap = none →
        s.recordEdge l rising f = { s with journal := { j with gap := some ⟨1, j.seq, f⟩, seq := j.seq + 1 } }) ∧
      (∀ g, j.gap = some g → g.count ≠ 0xFFFFFFFF →
        s.recordEdge l rising f =
          { s with journal := { j with gap := some { g with count := g.count + 1 }, seq := j.seq + 1 } }) ∧
      ∀ g, j.gap = some g → g.count = 0xFFFFFFFF → s.recordEdge l rising f = s)

/-! ## Events -/

/-- What the event unit does with an ordinary event while a session is open, by what the queue holds: stored; or an Events
Lost entry created with count 1; or that entry's count raised, and it unsent, unless the count stands at 65535; and nothing
while no session is open (R149, R150, R151). -/
def Obligations.EventsAreStoredOrCounted : Prop :=
  ∀ (s : State) (e : Event),
    let u := s.events
    (s.isOpen = false → s.queueEvent e = s) ∧
    (s.isOpen = true →
      ((∀ x ∈ u.queue, x.isLost = false) → u.queue.length < 31 →
        s.queueEvent e = { s with events := ⟨u.queue ++ [⟨u.next, e, false⟩], u.next + 1⟩ }) ∧
      ((∀ x ∈ u.queue, x.isLost = false) → u.queue.length = 31 →
        s.queueEvent e = { s with events := ⟨u.queue ++ [⟨u.next, .eventsLost 1, false⟩], u.next + 1⟩ }) ∧
      ∀ ordinary seq n sent, (∀ x ∈ ordinary, x.isLost = false) → u.queue = ordinary ++ [⟨seq, .eventsLost n, sent⟩] →
        (n < 65535 →
          s.queueEvent e = { s with events := ⟨ordinary ++ [⟨seq, .eventsLost (n + 1), false⟩], u.next⟩ }) ∧
        (65535 ≤ n → s.queueEvent e = s))

/-- The sequence counter is 1 when a session opens; a created entry takes its value and the counter rises by 1, the successor
of 65535 being 0; in a well-formed queue, which holds at most 32 entries, a number names at most one. The event unit places a
number by its distance from the oldest held entry's seq, or the counter, modulo 65536: held, behind or beyond; in a new
session 0 lies behind and 1 to 32768 beyond (R152). -/
def Obligations.EventNumbersArePlaced : Prop :=
  (∀ (s : State) (keepalive : Word16), (s.openSession keepalive).events.next = 1) ∧
  (∀ (u : EventUnit) (e : Event), (∀ x ∈ u.queue, x.isLost = false) →
    ∃ stored : Event, u.store e = ⟨u.queue ++ [⟨u.next, stored, false⟩], u.next + 1⟩) ∧
  (0xFFFF : Word16) + 1 = 0 ∧
  (∀ u : EventUnit, u.WellFormed → u.queue.length ≤ 32 ∧
    ∀ (i j : Nat) (e f : Entry), u.queue[i]? = some e → u.queue[j]? = some f → e.seq = f.seq → i = j) ∧
  (∀ (u : EventUnit) (n : Word16),
    let o := match u.queue with
      | [] => u.next
      | e :: _ => e.seq
    ((n - o).toNat < u.queue.length → u.place n = .held (n - o).toNat) ∧
    (u.queue.length ≤ (n - o).toNat → 1 ≤ (o - n).toNat → (o - n).toNat ≤ 32768 → u.place n = .behind) ∧
    (u.queue.length ≤ (n - o).toNat → ¬(1 ≤ (o - n).toNat ∧ (o - n).toNat ≤ 32768) → u.place n = .beyond)) ∧
  (EventUnit.place ⟨[], 1⟩ 0 = .behind ∧
    ∀ n : Word16, 1 ≤ n.toNat → n.toNat ≤ 32768 → EventUnit.place ⟨[], 1⟩ n = .beyond)

/-- Ack Events removes the entries from the oldest through a held and sent number; with a Link Fault entry among them, or the
Events Lost entry while no Link Fault entry stays, and a tally that is not 0 a new Link Fault is queued: stored, the tallies
then 0, or counted as lost, the tallies kept (R157). It refuses an unsent or a later number BAD_VALUE and answers OK and
removes nothing for one behind. Replay Events marks the entries from a held number unsent and refuses any other NOT_FOUND
(R155, R156). Model choices: log entries 1, 12 and 17. -/
def Obligations.EventsAreAcknowledgedAndReplayed : Prop :=
  ∀ (s : State) (tag : Byte) (seq : Word16), s.isOpen = true →
    let b := s.restartSilence
    let u := s.events
    let fields (v : EventUnit) (removed : Nat) := u8 removed ++ u8 v.queue.length ++ le16 v.oldest
    (s.Executes 0x06 tag →
      (∀ n, u.place seq = .held n → (∃ e, u.queue[n]? = some e ∧ e.sent = true) →
        let v : EventUnit := { u with queue := u.queue.drop (n + 1) }
        (s.link.tallies = ⟨0, 0, 0, 0⟩ ∨ ((∀ e ∈ u.queue.take (n + 1), e.isLinkFault = false) ∧
            ((∀ e ∈ u.queue.take (n + 1), e.isLost = false) ∨ ∃ e ∈ v.queue, e.isLinkFault = true)) →
          exec (.ackEvents tag seq) s = .next (({ b with events := v }).answered 0x86 tag .ok (fields v (n + 1)))) ∧
        (s.link.tallies ≠ ⟨0, 0, 0, 0⟩ →
          (∃ e ∈ u.queue.take (n + 1), e.isLinkFault = true) ∨
            ((∃ e ∈ u.queue.take (n + 1), e.isLost = true) ∧ ∀ e ∈ v.queue, e.isLinkFault = false) →
          ((∀ e ∈ v.queue, e.isLost = false) → v.queue.length < 31 →
            let w : EventUnit := ⟨v.queue ++ [⟨v.next, .linkFault s.link.tallies, false⟩], v.next + 1⟩
            exec (.ackEvents tag seq) s =
              .next (({ b with events := w, link := { s.link with tallies := ⟨0, 0, 0, 0⟩ } }).answered 0x86 tag .ok
                (fields w (n + 1)))) ∧
          ((∃ e ∈ v.queue, e.isLost = true) ∨ 31 ≤ v.queue.length →
            let w := v.store (.linkFault s.link.tallies)
            exec (.ackEvents tag seq) s = .next (({ b with events := w }).answered 0x86 tag .ok (fields w (n + 1)))))) ∧
      ((∃ n e, u.place seq = .held n ∧ u.queue[n]? = some e ∧ e.sent = false) ∨ u.place seq = .beyond →
        exec (.ackEvents tag seq) s = .next (b.answered 0x86 tag .badValue (fields u 0))) ∧
      (u.place seq = .behind → exec (.ackEvents tag seq) s = .next (b.answered 0x86 tag .ok (fields u 0)))) ∧
    (s.Executes 0x07 tag →
      (∀ n, u.place seq = .held n →
        exec (.replayEvents tag seq) s =
          .next (({ b with events := { u with
              queue := u.queue.take n ++ (u.queue.drop n).map fun e : Entry => { e with sent := false } } }).answered 0x87 tag .ok
            (u8 (u.queue.length - n)))) ∧
      (u.place seq = .behind ∨ u.place seq = .beyond →
        exec (.replayEvents tag seq) s = .next (b.answered 0x87 tag .notFound (zeros 1))))

/-- A page, track, trigger or line that the part does not have is refused BAD_VALUE by every request that names one, whatever
its other fields, its reserved and unused bytes among them, and nothing else happens; the units a step names are checked with
its record (R2, R12, R15, R17, R18, R50, R57, R62, R71, R72, R75, R76, R78, R80, R87, R94, R95, R126). Model choices: log
entries 1, 12 and 18. -/
def Obligations.UnitsThatDoNotExistAreRefused : Prop :=
  ∀ (s : State) (tag x a b c d : Byte) (group rest : LineSet) (time : Stamp) (offset : Word32),
    s.isOpen = true →
    let refused (i : Instr) (kind : Byte) (fields : List Byte) : Prop :=
      s.Executes kind tag → exec i s = .next (s.restartSilence.answered (kind + 0x80) tag .badValue fields)
    (64 ≤ x.toNat →
      (∀ records : List StepRecord, 1 ≤ records.length → records.length ≤ 19 →
        refused (.appendSteps tag x a records) 0x21 ([x, 0] ++ u16 s.freeSlots ++ [0])) ∧
      refused (.sealPage tag x) 0x22 (zeros 5) ∧ refused (.discardPage tag x) 0x23 (zeros 4) ∧
      refused (.readPage tag x a) 0x24 (zeros 11) ∧
      ∀ t : TrackId, refused (.queuePage tag x (BitVec.ofNat 8 t.val)) 0x31
        (u8 t.val ++ [x] ++ u8 s.tracks[t].queue.length ++ u8 s.tracks[t].state.code)) ∧
    (8 ≤ x.toNat →
      refused (.configureTrack tag x a b c group rest) 0x30 [x, 0, 0] ∧ refused (.queuePage tag a x) 0x31 [x, a, 0, 0] ∧
      refused (.flushQueue tag x) 0x32 (zeros 3) ∧ refused (.startTrackAt tag x a b time offset) 0x33 ([x] ++ zeros 15) ∧
      refused (.startTrackAfter tag x a b time offset) 0x33 ([x] ++ zeros 15) ∧
      refused (.startTrackOnTrigger tag x a b time offset) 0x33 ([x] ++ zeros 15) ∧
      refused (.startTrackAtEpoch tag x a b time offset) 0x33 ([x] ++ zeros 15) ∧
      refused (.stopTrackAbort tag x) 0x34 (zeros 8) ∧ refused (.stopTrackEnd tag x) 0x34 (zeros 8) ∧
      refused (.holdTrack tag x) 0x35 (zeros 2) ∧ refused (.releaseTrack tag x) 0x36 (zeros 8) ∧
      refused (.readTrack tag x) 0x37 (zeros 65)) ∧
    (4 ≤ x.toNat →
      refused (.armTrigger tag x a b c d) 0x40 [x, 0] ∧ refused (.disarmTrigger tag x) 0x41 (zeros 3) ∧
      refused (.readTrigger tag x) 0x42 (zeros 28) ∧
      ∀ t : TrackId, refused (.startTrackOnTrigger tag (BitVec.ofNat 8 t.val) a x time offset) 0x33
        (u8 t.val ++ u8 s.tracks[t].state.code ++ zeros 14)) ∧
    (16 ≤ x.toNat →
      refused (.configureLine tag x a b c d) 0x18 [x, 0, 0] ∧
      ∀ k : TriggerId, refused (.armTrigger tag (BitVec.ofNat 8 k.val) x a b c) 0x40
        (u8 k.val ++ u8 s.triggers[k].latch.code))

/-! ## The laws every step keeps -/

/-- The reset state obeys every law. -/
def Obligations.ResetObeysEveryLaw : Prop :=
  State.reset.WithinCapacity ∧ State.reset.Placed ∧ State.reset.LinesHeld ∧ State.reset.SessionLaw ∧
    State.reset.journal.Accounts

/-- No step exceeds a capacity: the step store, whose slots a FREE page holds none of (R9), the queues, buffers, slots and
caches of the part (00_scope.md, Capacities; R148). -/
def Obligations.StepsKeepWithinCapacity : Prop :=
  ∀ s t : State, s.WithinCapacity → step s = .next t → t.WithinCapacity

/-- Every step keeps each page where its state says: in one queue, active on one track, or nowhere (R10, R28). -/
def Obligations.StepsKeepPagesPlaced : Prop :=
  ∀ s t : State, s.Placed → step s = .next t → t.Placed

/-- Every step keeps the groups disjoint sets of outputs, the pages of a track within its group, and static outputs and the
lines of resting tracks at their rest levels (R28, R29, R121). -/
def Obligations.StepsKeepLinesHeld : Prop :=
  ∀ s t : State, s.Placed → s.LinesHeld → step s = .next t → t.LinesHeld

/-- Every step keeps a closed session quiet and the silence timer running exactly while it must (R177, R181). -/
def Obligations.StepsKeepTheSessionLaw : Prop :=
  ∀ s t : State, s.SessionLaw → step s = .next t → t.SessionLaw

/-- Every step keeps the journal's account of sequence numbers (R133). -/
def Obligations.StepsKeepTheJournalAccount : Prop :=
  ∀ s t : State, s.journal.Accounts → step s = .next t → t.journal.Accounts
end

