-- ==== Sys2Proof/Laws/State.lean ====
section
/-! SUPPORT. What each named update leaves unchanged: one lemma per field per update, so that no proof unfolds an update to
read a field it does not write. -/

namespace Sys2Proof.Machine

/-! ### modifyTrack -/

@[simp] theorem State.modifyTrack_timeline (s : State) (t : TrackId) (f : Track → Track) : (s.modifyTrack t f).timeline = s.timeline := rfl
@[simp] theorem State.modifyTrack_divider (s : State) (t : TrackId) (f : Track → Track) : (s.modifyTrack t f).divider = s.divider := rfl
@[simp] theorem State.modifyTrack_prescale (s : State) (t : TrackId) (f : Track → Track) : (s.modifyTrack t f).prescale = s.prescale := rfl
@[simp] theorem State.modifyTrack_phase (s : State) (t : TrackId) (f : Track → Track) : (s.modifyTrack t f).phase = s.phase := rfl
@[simp] theorem State.modifyTrack_cause (s : State) (t : TrackId) (f : Track → Track) : (s.modifyTrack t f).cause = s.cause := rfl
@[simp] theorem State.modifyTrack_straps (s : State) (t : TrackId) (f : Track → Track) : (s.modifyTrack t f).straps = s.straps := rfl
@[simp] theorem State.modifyTrack_linkRate (s : State) (t : TrackId) (f : Track → Track) : (s.modifyTrack t f).linkRate = s.linkRate := rfl
@[simp] theorem State.modifyTrack_resetPart (s : State) (t : TrackId) (f : Track → Track) : (s.modifyTrack t f).resetPart = s.resetPart := rfl
@[simp] theorem State.modifyTrack_session (s : State) (t : TrackId) (f : Track → Track) : (s.modifyTrack t f).session = s.session := rfl
@[simp] theorem State.modifyTrack_pages (s : State) (t : TrackId) (f : Track → Track) : (s.modifyTrack t f).pages = s.pages := rfl
@[simp] theorem State.modifyTrack_triggers (s : State) (t : TrackId) (f : Track → Track) : (s.modifyTrack t f).triggers = s.triggers := rfl
@[simp] theorem State.modifyTrack_lines (s : State) (t : TrackId) (f : Track → Track) : (s.modifyTrack t f).lines = s.lines := rfl
@[simp] theorem State.modifyTrack_pinLevels (s : State) (t : TrackId) (f : Track → Track) : (s.modifyTrack t f).pinLevels = s.pinLevels := rfl
@[simp] theorem State.modifyTrack_sample (s : State) (t : TrackId) (f : Track → Track) : (s.modifyTrack t f).sample = s.sample := rfl
@[simp] theorem State.modifyTrack_reference (s : State) (t : TrackId) (f : Track → Track) : (s.modifyTrack t f).reference = s.reference := rfl
@[simp] theorem State.modifyTrack_journal (s : State) (t : TrackId) (f : Track → Track) : (s.modifyTrack t f).journal = s.journal := rfl
@[simp] theorem State.modifyTrack_events (s : State) (t : TrackId) (f : Track → Track) : (s.modifyTrack t f).events = s.events := rfl
@[simp] theorem State.modifyTrack_link (s : State) (t : TrackId) (f : Track → Track) : (s.modifyTrack t f).link = s.link := rfl
@[simp] theorem State.modifyTrack_choices (s : State) (t : TrackId) (f : Track → Track) : (s.modifyTrack t f).choices = s.choices := rfl
@[simp] theorem State.modifyTrack_pending (s : State) (t : TrackId) (f : Track → Track) : (s.modifyTrack t f).pending = s.pending := rfl

/-! ### setTrackState -/

@[simp] theorem State.setTrackState_timeline (s : State) (t : TrackId) (st : TrackState) : (s.setTrackState t st).timeline = s.timeline := rfl
@[simp] theorem State.setTrackState_divider (s : State) (t : TrackId) (st : TrackState) : (s.setTrackState t st).divider = s.divider := rfl
@[simp] theorem State.setTrackState_prescale (s : State) (t : TrackId) (st : TrackState) : (s.setTrackState t st).prescale = s.prescale := rfl
@[simp] theorem State.setTrackState_phase (s : State) (t : TrackId) (st : TrackState) : (s.setTrackState t st).phase = s.phase := rfl
@[simp] theorem State.setTrackState_cause (s : State) (t : TrackId) (st : TrackState) : (s.setTrackState t st).cause = s.cause := rfl
@[simp] theorem State.setTrackState_straps (s : State) (t : TrackId) (st : TrackState) : (s.setTrackState t st).straps = s.straps := rfl
@[simp] theorem State.setTrackState_linkRate (s : State) (t : TrackId) (st : TrackState) : (s.setTrackState t st).linkRate = s.linkRate := rfl
@[simp] theorem State.setTrackState_resetPart (s : State) (t : TrackId) (st : TrackState) : (s.setTrackState t st).resetPart = s.resetPart := rfl
@[simp] theorem State.setTrackState_session (s : State) (t : TrackId) (st : TrackState) : (s.setTrackState t st).session = s.session := rfl
@[simp] theorem State.setTrackState_pages (s : State) (t : TrackId) (st : TrackState) : (s.setTrackState t st).pages = s.pages := rfl
@[simp] theorem State.setTrackState_triggers (s : State) (t : TrackId) (st : TrackState) : (s.setTrackState t st).triggers = s.triggers := rfl
@[simp] theorem State.setTrackState_lines (s : State) (t : TrackId) (st : TrackState) : (s.setTrackState t st).lines = s.lines := rfl
@[simp] theorem State.setTrackState_pinLevels (s : State) (t : TrackId) (st : TrackState) : (s.setTrackState t st).pinLevels = s.pinLevels := rfl
@[simp] theorem State.setTrackState_sample (s : State) (t : TrackId) (st : TrackState) : (s.setTrackState t st).sample = s.sample := rfl
@[simp] theorem State.setTrackState_reference (s : State) (t : TrackId) (st : TrackState) : (s.setTrackState t st).reference = s.reference := rfl
@[simp] theorem State.setTrackState_journal (s : State) (t : TrackId) (st : TrackState) : (s.setTrackState t st).journal = s.journal := rfl
@[simp] theorem State.setTrackState_events (s : State) (t : TrackId) (st : TrackState) : (s.setTrackState t st).events = s.events := rfl
@[simp] theorem State.setTrackState_link (s : State) (t : TrackId) (st : TrackState) : (s.setTrackState t st).link = s.link := rfl
@[simp] theorem State.setTrackState_choices (s : State) (t : TrackId) (st : TrackState) : (s.setTrackState t st).choices = s.choices := rfl
@[simp] theorem State.setTrackState_pending (s : State) (t : TrackId) (st : TrackState) : (s.setTrackState t st).pending = s.pending := rfl

/-! ### modifyPage -/

@[simp] theorem State.modifyPage_timeline (s : State) (p : PageId) (f : Page → Page) : (s.modifyPage p f).timeline = s.timeline := rfl
@[simp] theorem State.modifyPage_divider (s : State) (p : PageId) (f : Page → Page) : (s.modifyPage p f).divider = s.divider := rfl
@[simp] theorem State.modifyPage_prescale (s : State) (p : PageId) (f : Page → Page) : (s.modifyPage p f).prescale = s.prescale := rfl
@[simp] theorem State.modifyPage_phase (s : State) (p : PageId) (f : Page → Page) : (s.modifyPage p f).phase = s.phase := rfl
@[simp] theorem State.modifyPage_cause (s : State) (p : PageId) (f : Page → Page) : (s.modifyPage p f).cause = s.cause := rfl
@[simp] theorem State.modifyPage_straps (s : State) (p : PageId) (f : Page → Page) : (s.modifyPage p f).straps = s.straps := rfl
@[simp] theorem State.modifyPage_linkRate (s : State) (p : PageId) (f : Page → Page) : (s.modifyPage p f).linkRate = s.linkRate := rfl
@[simp] theorem State.modifyPage_resetPart (s : State) (p : PageId) (f : Page → Page) : (s.modifyPage p f).resetPart = s.resetPart := rfl
@[simp] theorem State.modifyPage_session (s : State) (p : PageId) (f : Page → Page) : (s.modifyPage p f).session = s.session := rfl
@[simp] theorem State.modifyPage_tracks (s : State) (p : PageId) (f : Page → Page) : (s.modifyPage p f).tracks = s.tracks := rfl
@[simp] theorem State.modifyPage_triggers (s : State) (p : PageId) (f : Page → Page) : (s.modifyPage p f).triggers = s.triggers := rfl
@[simp] theorem State.modifyPage_lines (s : State) (p : PageId) (f : Page → Page) : (s.modifyPage p f).lines = s.lines := rfl
@[simp] theorem State.modifyPage_pinLevels (s : State) (p : PageId) (f : Page → Page) : (s.modifyPage p f).pinLevels = s.pinLevels := rfl
@[simp] theorem State.modifyPage_sample (s : State) (p : PageId) (f : Page → Page) : (s.modifyPage p f).sample = s.sample := rfl
@[simp] theorem State.modifyPage_reference (s : State) (p : PageId) (f : Page → Page) : (s.modifyPage p f).reference = s.reference := rfl
@[simp] theorem State.modifyPage_journal (s : State) (p : PageId) (f : Page → Page) : (s.modifyPage p f).journal = s.journal := rfl
@[simp] theorem State.modifyPage_events (s : State) (p : PageId) (f : Page → Page) : (s.modifyPage p f).events = s.events := rfl
@[simp] theorem State.modifyPage_link (s : State) (p : PageId) (f : Page → Page) : (s.modifyPage p f).link = s.link := rfl
@[simp] theorem State.modifyPage_choices (s : State) (p : PageId) (f : Page → Page) : (s.modifyPage p f).choices = s.choices := rfl
@[simp] theorem State.modifyPage_pending (s : State) (p : PageId) (f : Page → Page) : (s.modifyPage p f).pending = s.pending := rfl

/-! ### modifyTrigger -/

@[simp] theorem State.modifyTrigger_timeline (s : State) (k : TriggerId) (f : Trigger → Trigger) : (s.modifyTrigger k f).timeline = s.timeline := rfl
@[simp] theorem State.modifyTrigger_divider (s : State) (k : TriggerId) (f : Trigger → Trigger) : (s.modifyTrigger k f).divider = s.divider := rfl
@[simp] theorem State.modifyTrigger_prescale (s : State) (k : TriggerId) (f : Trigger → Trigger) : (s.modifyTrigger k f).prescale = s.prescale := rfl
@[simp] theorem State.modifyTrigger_phase (s : State) (k : TriggerId) (f : Trigger → Trigger) : (s.modifyTrigger k f).phase = s.phase := rfl
@[simp] theorem State.modifyTrigger_cause (s : State) (k : TriggerId) (f : Trigger → Trigger) : (s.modifyTrigger k f).cause = s.cause := rfl
@[simp] theorem State.modifyTrigger_straps (s : State) (k : TriggerId) (f : Trigger → Trigger) : (s.modifyTrigger k f).straps = s.straps := rfl
@[simp] theorem State.modifyTrigger_linkRate (s : State) (k : TriggerId) (f : Trigger → Trigger) : (s.modifyTrigger k f).linkRate = s.linkRate := rfl
@[simp] theorem State.modifyTrigger_resetPart (s : State) (k : TriggerId) (f : Trigger → Trigger) : (s.modifyTrigger k f).resetPart = s.resetPart := rfl
@[simp] theorem State.modifyTrigger_session (s : State) (k : TriggerId) (f : Trigger → Trigger) : (s.modifyTrigger k f).session = s.session := rfl
@[simp] theorem State.modifyTrigger_pages (s : State) (k : TriggerId) (f : Trigger → Trigger) : (s.modifyTrigger k f).pages = s.pages := rfl
@[simp] theorem State.modifyTrigger_tracks (s : State) (k : TriggerId) (f : Trigger → Trigger) : (s.modifyTrigger k f).tracks = s.tracks := rfl
@[simp] theorem State.modifyTrigger_lines (s : State) (k : TriggerId) (f : Trigger → Trigger) : (s.modifyTrigger k f).lines = s.lines := rfl
@[simp] theorem State.modifyTrigger_pinLevels (s : State) (k : TriggerId) (f : Trigger → Trigger) : (s.modifyTrigger k f).pinLevels = s.pinLevels := rfl
@[simp] theorem State.modifyTrigger_sample (s : State) (k : TriggerId) (f : Trigger → Trigger) : (s.modifyTrigger k f).sample = s.sample := rfl
@[simp] theorem State.modifyTrigger_reference (s : State) (k : TriggerId) (f : Trigger → Trigger) : (s.modifyTrigger k f).reference = s.reference := rfl
@[simp] theorem State.modifyTrigger_journal (s : State) (k : TriggerId) (f : Trigger → Trigger) : (s.modifyTrigger k f).journal = s.journal := rfl
@[simp] theorem State.modifyTrigger_events (s : State) (k : TriggerId) (f : Trigger → Trigger) : (s.modifyTrigger k f).events = s.events := rfl
@[simp] theorem State.modifyTrigger_link (s : State) (k : TriggerId) (f : Trigger → Trigger) : (s.modifyTrigger k f).link = s.link := rfl
@[simp] theorem State.modifyTrigger_choices (s : State) (k : TriggerId) (f : Trigger → Trigger) : (s.modifyTrigger k f).choices = s.choices := rfl
@[simp] theorem State.modifyTrigger_pending (s : State) (k : TriggerId) (f : Trigger → Trigger) : (s.modifyTrigger k f).pending = s.pending := rfl

/-! ### setLatch -/

@[simp] theorem State.setLatch_timeline (s : State) (k : TriggerId) (latch : Latch) : (s.setLatch k latch).timeline = s.timeline := rfl
@[simp] theorem State.setLatch_divider (s : State) (k : TriggerId) (latch : Latch) : (s.setLatch k latch).divider = s.divider := rfl
@[simp] theorem State.setLatch_prescale (s : State) (k : TriggerId) (latch : Latch) : (s.setLatch k latch).prescale = s.prescale := rfl
@[simp] theorem State.setLatch_phase (s : State) (k : TriggerId) (latch : Latch) : (s.setLatch k latch).phase = s.phase := rfl
@[simp] theorem State.setLatch_cause (s : State) (k : TriggerId) (latch : Latch) : (s.setLatch k latch).cause = s.cause := rfl
@[simp] theorem State.setLatch_straps (s : State) (k : TriggerId) (latch : Latch) : (s.setLatch k latch).straps = s.straps := rfl
@[simp] theorem State.setLatch_linkRate (s : State) (k : TriggerId) (latch : Latch) : (s.setLatch k latch).linkRate = s.linkRate := rfl
@[simp] theorem State.setLatch_resetPart (s : State) (k : TriggerId) (latch : Latch) : (s.setLatch k latch).resetPart = s.resetPart := rfl
@[simp] theorem State.setLatch_session (s : State) (k : TriggerId) (latch : Latch) : (s.setLatch k latch).session = s.session := rfl
@[simp] theorem State.setLatch_pages (s : State) (k : TriggerId) (latch : Latch) : (s.setLatch k latch).pages = s.pages := rfl
@[simp] theorem State.setLatch_tracks (s : State) (k : TriggerId) (latch : Latch) : (s.setLatch k latch).tracks = s.tracks := rfl
@[simp] theorem State.setLatch_lines (s : State) (k : TriggerId) (latch : Latch) : (s.setLatch k latch).lines = s.lines := rfl
@[simp] theorem State.setLatch_pinLevels (s : State) (k : TriggerId) (latch : Latch) : (s.setLatch k latch).pinLevels = s.pinLevels := rfl
@[simp] theorem State.setLatch_sample (s : State) (k : TriggerId) (latch : Latch) : (s.setLatch k latch).sample = s.sample := rfl
@[simp] theorem State.setLatch_reference (s : State) (k : TriggerId) (latch : Latch) : (s.setLatch k latch).reference = s.reference := rfl
@[simp] theorem State.setLatch_journal (s : State) (k : TriggerId) (latch : Latch) : (s.setLatch k latch).journal = s.journal := rfl
@[simp] theorem State.setLatch_events (s : State) (k : TriggerId) (latch : Latch) : (s.setLatch k latch).events = s.events := rfl
@[simp] theorem State.setLatch_link (s : State) (k : TriggerId) (latch : Latch) : (s.setLatch k latch).link = s.link := rfl
@[simp] theorem State.setLatch_choices (s : State) (k : TriggerId) (latch : Latch) : (s.setLatch k latch).choices = s.choices := rfl
@[simp] theorem State.setLatch_pending (s : State) (k : TriggerId) (latch : Latch) : (s.setLatch k latch).pending = s.pending := rfl

/-! ### modifyLine -/

@[simp] theorem State.modifyLine_timeline (s : State) (l : LineId) (f : Line → Line) : (s.modifyLine l f).timeline = s.timeline := rfl
@[simp] theorem State.modifyLine_divider (s : State) (l : LineId) (f : Line → Line) : (s.modifyLine l f).divider = s.divider := rfl
@[simp] theorem State.modifyLine_prescale (s : State) (l : LineId) (f : Line → Line) : (s.modifyLine l f).prescale = s.prescale := rfl
@[simp] theorem State.modifyLine_phase (s : State) (l : LineId) (f : Line → Line) : (s.modifyLine l f).phase = s.phase := rfl
@[simp] theorem State.modifyLine_cause (s : State) (l : LineId) (f : Line → Line) : (s.modifyLine l f).cause = s.cause := rfl
@[simp] theorem State.modifyLine_straps (s : State) (l : LineId) (f : Line → Line) : (s.modifyLine l f).straps = s.straps := rfl
@[simp] theorem State.modifyLine_linkRate (s : State) (l : LineId) (f : Line → Line) : (s.modifyLine l f).linkRate = s.linkRate := rfl
@[simp] theorem State.modifyLine_resetPart (s : State) (l : LineId) (f : Line → Line) : (s.modifyLine l f).resetPart = s.resetPart := rfl
@[simp] theorem State.modifyLine_session (s : State) (l : LineId) (f : Line → Line) : (s.modifyLine l f).session = s.session := rfl
@[simp] theorem State.modifyLine_pages (s : State) (l : LineId) (f : Line → Line) : (s.modifyLine l f).pages = s.pages := rfl
@[simp] theorem State.modifyLine_tracks (s : State) (l : LineId) (f : Line → Line) : (s.modifyLine l f).tracks = s.tracks := rfl
@[simp] theorem State.modifyLine_triggers (s : State) (l : LineId) (f : Line → Line) : (s.modifyLine l f).triggers = s.triggers := rfl
@[simp] theorem State.modifyLine_pinLevels (s : State) (l : LineId) (f : Line → Line) : (s.modifyLine l f).pinLevels = s.pinLevels := rfl
@[simp] theorem State.modifyLine_sample (s : State) (l : LineId) (f : Line → Line) : (s.modifyLine l f).sample = s.sample := rfl
@[simp] theorem State.modifyLine_reference (s : State) (l : LineId) (f : Line → Line) : (s.modifyLine l f).reference = s.reference := rfl
@[simp] theorem State.modifyLine_journal (s : State) (l : LineId) (f : Line → Line) : (s.modifyLine l f).journal = s.journal := rfl
@[simp] theorem State.modifyLine_events (s : State) (l : LineId) (f : Line → Line) : (s.modifyLine l f).events = s.events := rfl
@[simp] theorem State.modifyLine_link (s : State) (l : LineId) (f : Line → Line) : (s.modifyLine l f).link = s.link := rfl
@[simp] theorem State.modifyLine_choices (s : State) (l : LineId) (f : Line → Line) : (s.modifyLine l f).choices = s.choices := rfl
@[simp] theorem State.modifyLine_pending (s : State) (l : LineId) (f : Line → Line) : (s.modifyLine l f).pending = s.pending := rfl

/-! ### mapLines -/

@[simp] theorem State.mapLines_timeline (s : State) (m : LineSet) (f : LineId → Line → Line) : (s.mapLines m f).timeline = s.timeline := rfl
@[simp] theorem State.mapLines_divider (s : State) (m : LineSet) (f : LineId → Line → Line) : (s.mapLines m f).divider = s.divider := rfl
@[simp] theorem State.mapLines_prescale (s : State) (m : LineSet) (f : LineId → Line → Line) : (s.mapLines m f).prescale = s.prescale := rfl
@[simp] theorem State.mapLines_phase (s : State) (m : LineSet) (f : LineId → Line → Line) : (s.mapLines m f).phase = s.phase := rfl
@[simp] theorem State.mapLines_cause (s : State) (m : LineSet) (f : LineId → Line → Line) : (s.mapLines m f).cause = s.cause := rfl
@[simp] theorem State.mapLines_straps (s : State) (m : LineSet) (f : LineId → Line → Line) : (s.mapLines m f).straps = s.straps := rfl
@[simp] theorem State.mapLines_linkRate (s : State) (m : LineSet) (f : LineId → Line → Line) : (s.mapLines m f).linkRate = s.linkRate := rfl
@[simp] theorem State.mapLines_resetPart (s : State) (m : LineSet) (f : LineId → Line → Line) : (s.mapLines m f).resetPart = s.resetPart := rfl
@[simp] theorem State.mapLines_session (s : State) (m : LineSet) (f : LineId → Line → Line) : (s.mapLines m f).session = s.session := rfl
@[simp] theorem State.mapLines_pages (s : State) (m : LineSet) (f : LineId → Line → Line) : (s.mapLines m f).pages = s.pages := rfl
@[simp] theorem State.mapLines_tracks (s : State) (m : LineSet) (f : LineId → Line → Line) : (s.mapLines m f).tracks = s.tracks := rfl
@[simp] theorem State.mapLines_triggers (s : State) (m : LineSet) (f : LineId → Line → Line) : (s.mapLines m f).triggers = s.triggers := rfl
@[simp] theorem State.mapLines_pinLevels (s : State) (m : LineSet) (f : LineId → Line → Line) : (s.mapLines m f).pinLevels = s.pinLevels := rfl
@[simp] theorem State.mapLines_sample (s : State) (m : LineSet) (f : LineId → Line → Line) : (s.mapLines m f).sample = s.sample := rfl
@[simp] theorem State.mapLines_reference (s : State) (m : LineSet) (f : LineId → Line → Line) : (s.mapLines m f).reference = s.reference := rfl
@[simp] theorem State.mapLines_journal (s : State) (m : LineSet) (f : LineId → Line → Line) : (s.mapLines m f).journal = s.journal := rfl
@[simp] theorem State.mapLines_events (s : State) (m : LineSet) (f : LineId → Line → Line) : (s.mapLines m f).events = s.events := rfl
@[simp] theorem State.mapLines_link (s : State) (m : LineSet) (f : LineId → Line → Line) : (s.mapLines m f).link = s.link := rfl
@[simp] theorem State.mapLines_choices (s : State) (m : LineSet) (f : LineId → Line → Line) : (s.mapLines m f).choices = s.choices := rfl
@[simp] theorem State.mapLines_pending (s : State) (m : LineSet) (f : LineId → Line → Line) : (s.mapLines m f).pending = s.pending := rfl

/-! ### driveLines -/

@[simp] theorem State.driveLines_timeline (s : State) (m v : LineSet) : (s.driveLines m v).timeline = s.timeline := rfl
@[simp] theorem State.driveLines_divider (s : State) (m v : LineSet) : (s.driveLines m v).divider = s.divider := rfl
@[simp] theorem State.driveLines_prescale (s : State) (m v : LineSet) : (s.driveLines m v).prescale = s.prescale := rfl
@[simp] theorem State.driveLines_phase (s : State) (m v : LineSet) : (s.driveLines m v).phase = s.phase := rfl
@[simp] theorem State.driveLines_cause (s : State) (m v : LineSet) : (s.driveLines m v).cause = s.cause := rfl
@[simp] theorem State.driveLines_straps (s : State) (m v : LineSet) : (s.driveLines m v).straps = s.straps := rfl
@[simp] theorem State.driveLines_linkRate (s : State) (m v : LineSet) : (s.driveLines m v).linkRate = s.linkRate := rfl
@[simp] theorem State.driveLines_resetPart (s : State) (m v : LineSet) : (s.driveLines m v).resetPart = s.resetPart := rfl
@[simp] theorem State.driveLines_session (s : State) (m v : LineSet) : (s.driveLines m v).session = s.session := rfl
@[simp] theorem State.driveLines_pages (s : State) (m v : LineSet) : (s.driveLines m v).pages = s.pages := rfl
@[simp] theorem State.driveLines_tracks (s : State) (m v : LineSet) : (s.driveLines m v).tracks = s.tracks := rfl
@[simp] theorem State.driveLines_triggers (s : State) (m v : LineSet) : (s.driveLines m v).triggers = s.triggers := rfl
@[simp] theorem State.driveLines_pinLevels (s : State) (m v : LineSet) : (s.driveLines m v).pinLevels = s.pinLevels := rfl
@[simp] theorem State.driveLines_sample (s : State) (m v : LineSet) : (s.driveLines m v).sample = s.sample := rfl
@[simp] theorem State.driveLines_reference (s : State) (m v : LineSet) : (s.driveLines m v).reference = s.reference := rfl
@[simp] theorem State.driveLines_journal (s : State) (m v : LineSet) : (s.driveLines m v).journal = s.journal := rfl
@[simp] theorem State.driveLines_events (s : State) (m v : LineSet) : (s.driveLines m v).events = s.events := rfl
@[simp] theorem State.driveLines_link (s : State) (m v : LineSet) : (s.driveLines m v).link = s.link := rfl
@[simp] theorem State.driveLines_choices (s : State) (m v : LineSet) : (s.driveLines m v).choices = s.choices := rfl
@[simp] theorem State.driveLines_pending (s : State) (m v : LineSet) : (s.driveLines m v).pending = s.pending := rfl

/-! ### driveAll -/

@[simp] theorem State.driveAll_timeline (s : State) (m : LineSet) (v : Bool) : (s.driveAll m v).timeline = s.timeline := rfl
@[simp] theorem State.driveAll_divider (s : State) (m : LineSet) (v : Bool) : (s.driveAll m v).divider = s.divider := rfl
@[simp] theorem State.driveAll_prescale (s : State) (m : LineSet) (v : Bool) : (s.driveAll m v).prescale = s.prescale := rfl
@[simp] theorem State.driveAll_phase (s : State) (m : LineSet) (v : Bool) : (s.driveAll m v).phase = s.phase := rfl
@[simp] theorem State.driveAll_cause (s : State) (m : LineSet) (v : Bool) : (s.driveAll m v).cause = s.cause := rfl
@[simp] theorem State.driveAll_straps (s : State) (m : LineSet) (v : Bool) : (s.driveAll m v).straps = s.straps := rfl
@[simp] theorem State.driveAll_linkRate (s : State) (m : LineSet) (v : Bool) : (s.driveAll m v).linkRate = s.linkRate := rfl
@[simp] theorem State.driveAll_resetPart (s : State) (m : LineSet) (v : Bool) : (s.driveAll m v).resetPart = s.resetPart := rfl
@[simp] theorem State.driveAll_session (s : State) (m : LineSet) (v : Bool) : (s.driveAll m v).session = s.session := rfl
@[simp] theorem State.driveAll_pages (s : State) (m : LineSet) (v : Bool) : (s.driveAll m v).pages = s.pages := rfl
@[simp] theorem State.driveAll_tracks (s : State) (m : LineSet) (v : Bool) : (s.driveAll m v).tracks = s.tracks := rfl
@[simp] theorem State.driveAll_triggers (s : State) (m : LineSet) (v : Bool) : (s.driveAll m v).triggers = s.triggers := rfl
@[simp] theorem State.driveAll_pinLevels (s : State) (m : LineSet) (v : Bool) : (s.driveAll m v).pinLevels = s.pinLevels := rfl
@[simp] theorem State.driveAll_sample (s : State) (m : LineSet) (v : Bool) : (s.driveAll m v).sample = s.sample := rfl
@[simp] theorem State.driveAll_reference (s : State) (m : LineSet) (v : Bool) : (s.driveAll m v).reference = s.reference := rfl
@[simp] theorem State.driveAll_journal (s : State) (m : LineSet) (v : Bool) : (s.driveAll m v).journal = s.journal := rfl
@[simp] theorem State.driveAll_events (s : State) (m : LineSet) (v : Bool) : (s.driveAll m v).events = s.events := rfl
@[simp] theorem State.driveAll_link (s : State) (m : LineSet) (v : Bool) : (s.driveAll m v).link = s.link := rfl
@[simp] theorem State.driveAll_choices (s : State) (m : LineSet) (v : Bool) : (s.driveAll m v).choices = s.choices := rfl
@[simp] theorem State.driveAll_pending (s : State) (m : LineSet) (v : Bool) : (s.driveAll m v).pending = s.pending := rfl

/-! ### toggleLines -/

@[simp] theorem State.toggleLines_timeline (s : State) (m : LineSet) : (s.toggleLines m).timeline = s.timeline := rfl
@[simp] theorem State.toggleLines_divider (s : State) (m : LineSet) : (s.toggleLines m).divider = s.divider := rfl
@[simp] theorem State.toggleLines_prescale (s : State) (m : LineSet) : (s.toggleLines m).prescale = s.prescale := rfl
@[simp] theorem State.toggleLines_phase (s : State) (m : LineSet) : (s.toggleLines m).phase = s.phase := rfl
@[simp] theorem State.toggleLines_cause (s : State) (m : LineSet) : (s.toggleLines m).cause = s.cause := rfl
@[simp] theorem State.toggleLines_straps (s : State) (m : LineSet) : (s.toggleLines m).straps = s.straps := rfl
@[simp] theorem State.toggleLines_linkRate (s : State) (m : LineSet) : (s.toggleLines m).linkRate = s.linkRate := rfl
@[simp] theorem State.toggleLines_resetPart (s : State) (m : LineSet) : (s.toggleLines m).resetPart = s.resetPart := rfl
@[simp] theorem State.toggleLines_session (s : State) (m : LineSet) : (s.toggleLines m).session = s.session := rfl
@[simp] theorem State.toggleLines_pages (s : State) (m : LineSet) : (s.toggleLines m).pages = s.pages := rfl
@[simp] theorem State.toggleLines_tracks (s : State) (m : LineSet) : (s.toggleLines m).tracks = s.tracks := rfl
@[simp] theorem State.toggleLines_triggers (s : State) (m : LineSet) : (s.toggleLines m).triggers = s.triggers := rfl
@[simp] theorem State.toggleLines_pinLevels (s : State) (m : LineSet) : (s.toggleLines m).pinLevels = s.pinLevels := rfl
@[simp] theorem State.toggleLines_sample (s : State) (m : LineSet) : (s.toggleLines m).sample = s.sample := rfl
@[simp] theorem State.toggleLines_reference (s : State) (m : LineSet) : (s.toggleLines m).reference = s.reference := rfl
@[simp] theorem State.toggleLines_journal (s : State) (m : LineSet) : (s.toggleLines m).journal = s.journal := rfl
@[simp] theorem State.toggleLines_events (s : State) (m : LineSet) : (s.toggleLines m).events = s.events := rfl
@[simp] theorem State.toggleLines_link (s : State) (m : LineSet) : (s.toggleLines m).link = s.link := rfl
@[simp] theorem State.toggleLines_choices (s : State) (m : LineSet) : (s.toggleLines m).choices = s.choices := rfl
@[simp] theorem State.toggleLines_pending (s : State) (m : LineSet) : (s.toggleLines m).pending = s.pending := rfl

/-! ### storeRest -/

@[simp] theorem State.storeRest_timeline (s : State) (m v : LineSet) : (s.storeRest m v).timeline = s.timeline := rfl
@[simp] theorem State.storeRest_divider (s : State) (m v : LineSet) : (s.storeRest m v).divider = s.divider := rfl
@[simp] theorem State.storeRest_prescale (s : State) (m v : LineSet) : (s.storeRest m v).prescale = s.prescale := rfl
@[simp] theorem State.storeRest_phase (s : State) (m v : LineSet) : (s.storeRest m v).phase = s.phase := rfl
@[simp] theorem State.storeRest_cause (s : State) (m v : LineSet) : (s.storeRest m v).cause = s.cause := rfl
@[simp] theorem State.storeRest_straps (s : State) (m v : LineSet) : (s.storeRest m v).straps = s.straps := rfl
@[simp] theorem State.storeRest_linkRate (s : State) (m v : LineSet) : (s.storeRest m v).linkRate = s.linkRate := rfl
@[simp] theorem State.storeRest_resetPart (s : State) (m v : LineSet) : (s.storeRest m v).resetPart = s.resetPart := rfl
@[simp] theorem State.storeRest_session (s : State) (m v : LineSet) : (s.storeRest m v).session = s.session := rfl
@[simp] theorem State.storeRest_pages (s : State) (m v : LineSet) : (s.storeRest m v).pages = s.pages := rfl
@[simp] theorem State.storeRest_tracks (s : State) (m v : LineSet) : (s.storeRest m v).tracks = s.tracks := rfl
@[simp] theorem State.storeRest_triggers (s : State) (m v : LineSet) : (s.storeRest m v).triggers = s.triggers := rfl
@[simp] theorem State.storeRest_pinLevels (s : State) (m v : LineSet) : (s.storeRest m v).pinLevels = s.pinLevels := rfl
@[simp] theorem State.storeRest_sample (s : State) (m v : LineSet) : (s.storeRest m v).sample = s.sample := rfl
@[simp] theorem State.storeRest_reference (s : State) (m v : LineSet) : (s.storeRest m v).reference = s.reference := rfl
@[simp] theorem State.storeRest_journal (s : State) (m v : LineSet) : (s.storeRest m v).journal = s.journal := rfl
@[simp] theorem State.storeRest_events (s : State) (m v : LineSet) : (s.storeRest m v).events = s.events := rfl
@[simp] theorem State.storeRest_link (s : State) (m v : LineSet) : (s.storeRest m v).link = s.link := rfl
@[simp] theorem State.storeRest_choices (s : State) (m v : LineSet) : (s.storeRest m v).choices = s.choices := rfl
@[simp] theorem State.storeRest_pending (s : State) (m v : LineSet) : (s.storeRest m v).pending = s.pending := rfl

/-! ### restLines -/

@[simp] theorem State.restLines_timeline (s : State) (m : LineSet) : (s.restLines m).timeline = s.timeline := rfl
@[simp] theorem State.restLines_divider (s : State) (m : LineSet) : (s.restLines m).divider = s.divider := rfl
@[simp] theorem State.restLines_prescale (s : State) (m : LineSet) : (s.restLines m).prescale = s.prescale := rfl
@[simp] theorem State.restLines_phase (s : State) (m : LineSet) : (s.restLines m).phase = s.phase := rfl
@[simp] theorem State.restLines_cause (s : State) (m : LineSet) : (s.restLines m).cause = s.cause := rfl
@[simp] theorem State.restLines_straps (s : State) (m : LineSet) : (s.restLines m).straps = s.straps := rfl
@[simp] theorem State.restLines_linkRate (s : State) (m : LineSet) : (s.restLines m).linkRate = s.linkRate := rfl
@[simp] theorem State.restLines_resetPart (s : State) (m : LineSet) : (s.restLines m).resetPart = s.resetPart := rfl
@[simp] theorem State.restLines_session (s : State) (m : LineSet) : (s.restLines m).session = s.session := rfl
@[simp] theorem State.restLines_pages (s : State) (m : LineSet) : (s.restLines m).pages = s.pages := rfl
@[simp] theorem State.restLines_tracks (s : State) (m : LineSet) : (s.restLines m).tracks = s.tracks := rfl
@[simp] theorem State.restLines_triggers (s : State) (m : LineSet) : (s.restLines m).triggers = s.triggers := rfl
@[simp] theorem State.restLines_pinLevels (s : State) (m : LineSet) : (s.restLines m).pinLevels = s.pinLevels := rfl
@[simp] theorem State.restLines_sample (s : State) (m : LineSet) : (s.restLines m).sample = s.sample := rfl
@[simp] theorem State.restLines_reference (s : State) (m : LineSet) : (s.restLines m).reference = s.reference := rfl
@[simp] theorem State.restLines_journal (s : State) (m : LineSet) : (s.restLines m).journal = s.journal := rfl
@[simp] theorem State.restLines_events (s : State) (m : LineSet) : (s.restLines m).events = s.events := rfl
@[simp] theorem State.restLines_link (s : State) (m : LineSet) : (s.restLines m).link = s.link := rfl
@[simp] theorem State.restLines_choices (s : State) (m : LineSet) : (s.restLines m).choices = s.choices := rfl
@[simp] theorem State.restLines_pending (s : State) (m : LineSet) : (s.restLines m).pending = s.pending := rfl

/-! ### applyRest -/

@[simp] theorem State.applyRest_timeline (s : State) (t : TrackId) : (s.applyRest t).timeline = s.timeline := rfl
@[simp] theorem State.applyRest_divider (s : State) (t : TrackId) : (s.applyRest t).divider = s.divider := rfl
@[simp] theorem State.applyRest_prescale (s : State) (t : TrackId) : (s.applyRest t).prescale = s.prescale := rfl
@[simp] theorem State.applyRest_phase (s : State) (t : TrackId) : (s.applyRest t).phase = s.phase := rfl
@[simp] theorem State.applyRest_cause (s : State) (t : TrackId) : (s.applyRest t).cause = s.cause := rfl
@[simp] theorem State.applyRest_straps (s : State) (t : TrackId) : (s.applyRest t).straps = s.straps := rfl
@[simp] theorem State.applyRest_linkRate (s : State) (t : TrackId) : (s.applyRest t).linkRate = s.linkRate := rfl
@[simp] theorem State.applyRest_resetPart (s : State) (t : TrackId) : (s.applyRest t).resetPart = s.resetPart := rfl
@[simp] theorem State.applyRest_session (s : State) (t : TrackId) : (s.applyRest t).session = s.session := rfl
@[simp] theorem State.applyRest_pages (s : State) (t : TrackId) : (s.applyRest t).pages = s.pages := rfl
@[simp] theorem State.applyRest_tracks (s : State) (t : TrackId) : (s.applyRest t).tracks = s.tracks := rfl
@[simp] theorem State.applyRest_triggers (s : State) (t : TrackId) : (s.applyRest t).triggers = s.triggers := rfl
@[simp] theorem State.applyRest_pinLevels (s : State) (t : TrackId) : (s.applyRest t).pinLevels = s.pinLevels := rfl
@[simp] theorem State.applyRest_sample (s : State) (t : TrackId) : (s.applyRest t).sample = s.sample := rfl
@[simp] theorem State.applyRest_reference (s : State) (t : TrackId) : (s.applyRest t).reference = s.reference := rfl
@[simp] theorem State.applyRest_journal (s : State) (t : TrackId) : (s.applyRest t).journal = s.journal := rfl
@[simp] theorem State.applyRest_events (s : State) (t : TrackId) : (s.applyRest t).events = s.events := rfl
@[simp] theorem State.applyRest_link (s : State) (t : TrackId) : (s.applyRest t).link = s.link := rfl
@[simp] theorem State.applyRest_choices (s : State) (t : TrackId) : (s.applyRest t).choices = s.choices := rfl
@[simp] theorem State.applyRest_pending (s : State) (t : TrackId) : (s.applyRest t).pending = s.pending := rfl

/-! ### queueEvent -/

@[simp] theorem State.queueEvent_timeline (s : State) (e : Event) : (s.queueEvent e).timeline = s.timeline := by unfold State.queueEvent; split <;> rfl
@[simp] theorem State.queueEvent_divider (s : State) (e : Event) : (s.queueEvent e).divider = s.divider := by unfold State.queueEvent; split <;> rfl
@[simp] theorem State.queueEvent_prescale (s : State) (e : Event) : (s.queueEvent e).prescale = s.prescale := by unfold State.queueEvent; split <;> rfl
@[simp] theorem State.queueEvent_phase (s : State) (e : Event) : (s.queueEvent e).phase = s.phase := by unfold State.queueEvent; split <;> rfl
@[simp] theorem State.queueEvent_cause (s : State) (e : Event) : (s.queueEvent e).cause = s.cause := by unfold State.queueEvent; split <;> rfl
@[simp] theorem State.queueEvent_straps (s : State) (e : Event) : (s.queueEvent e).straps = s.straps := by unfold State.queueEvent; split <;> rfl
@[simp] theorem State.queueEvent_linkRate (s : State) (e : Event) : (s.queueEvent e).linkRate = s.linkRate := by unfold State.queueEvent; split <;> rfl
@[simp] theorem State.queueEvent_resetPart (s : State) (e : Event) : (s.queueEvent e).resetPart = s.resetPart := by unfold State.queueEvent; split <;> rfl
@[simp] theorem State.queueEvent_session (s : State) (e : Event) : (s.queueEvent e).session = s.session := by unfold State.queueEvent; split <;> rfl
@[simp] theorem State.queueEvent_pages (s : State) (e : Event) : (s.queueEvent e).pages = s.pages := by unfold State.queueEvent; split <;> rfl
@[simp] theorem State.queueEvent_tracks (s : State) (e : Event) : (s.queueEvent e).tracks = s.tracks := by unfold State.queueEvent; split <;> rfl
@[simp] theorem State.queueEvent_triggers (s : State) (e : Event) : (s.queueEvent e).triggers = s.triggers := by unfold State.queueEvent; split <;> rfl
@[simp] theorem State.queueEvent_lines (s : State) (e : Event) : (s.queueEvent e).lines = s.lines := by unfold State.queueEvent; split <;> rfl
@[simp] theorem State.queueEvent_pinLevels (s : State) (e : Event) : (s.queueEvent e).pinLevels = s.pinLevels := by unfold State.queueEvent; split <;> rfl
@[simp] theorem State.queueEvent_sample (s : State) (e : Event) : (s.queueEvent e).sample = s.sample := by unfold State.queueEvent; split <;> rfl
@[simp] theorem State.queueEvent_reference (s : State) (e : Event) : (s.queueEvent e).reference = s.reference := by unfold State.queueEvent; split <;> rfl
@[simp] theorem State.queueEvent_journal (s : State) (e : Event) : (s.queueEvent e).journal = s.journal := by unfold State.queueEvent; split <;> rfl
@[simp] theorem State.queueEvent_link (s : State) (e : Event) : (s.queueEvent e).link = s.link := by unfold State.queueEvent; split <;> rfl
@[simp] theorem State.queueEvent_choices (s : State) (e : Event) : (s.queueEvent e).choices = s.choices := by unfold State.queueEvent; split <;> rfl
@[simp] theorem State.queueEvent_pending (s : State) (e : Event) : (s.queueEvent e).pending = s.pending := by unfold State.queueEvent; split <;> rfl

/-! ### queueEventIf -/

@[simp] theorem State.queueEventIf_timeline (s : State) (b : Bool) (e : Event) : (s.queueEventIf b e).timeline = s.timeline := by unfold State.queueEventIf; split <;> simp
@[simp] theorem State.queueEventIf_divider (s : State) (b : Bool) (e : Event) : (s.queueEventIf b e).divider = s.divider := by unfold State.queueEventIf; split <;> simp
@[simp] theorem State.queueEventIf_prescale (s : State) (b : Bool) (e : Event) : (s.queueEventIf b e).prescale = s.prescale := by unfold State.queueEventIf; split <;> simp
@[simp] theorem State.queueEventIf_phase (s : State) (b : Bool) (e : Event) : (s.queueEventIf b e).phase = s.phase := by unfold State.queueEventIf; split <;> simp
@[simp] theorem State.queueEventIf_cause (s : State) (b : Bool) (e : Event) : (s.queueEventIf b e).cause = s.cause := by unfold State.queueEventIf; split <;> simp
@[simp] theorem State.queueEventIf_straps (s : State) (b : Bool) (e : Event) : (s.queueEventIf b e).straps = s.straps := by unfold State.queueEventIf; split <;> simp
@[simp] theorem State.queueEventIf_linkRate (s : State) (b : Bool) (e : Event) : (s.queueEventIf b e).linkRate = s.linkRate := by unfold State.queueEventIf; split <;> simp
@[simp] theorem State.queueEventIf_resetPart (s : State) (b : Bool) (e : Event) : (s.queueEventIf b e).resetPart = s.resetPart := by unfold State.queueEventIf; split <;> simp
@[simp] theorem State.queueEventIf_session (s : State) (b : Bool) (e : Event) : (s.queueEventIf b e).session = s.session := by unfold State.queueEventIf; split <;> simp
@[simp] theorem State.queueEventIf_pages (s : State) (b : Bool) (e : Event) : (s.queueEventIf b e).pages = s.pages := by unfold State.queueEventIf; split <;> simp
@[simp] theorem State.queueEventIf_tracks (s : State) (b : Bool) (e : Event) : (s.queueEventIf b e).tracks = s.tracks := by unfold State.queueEventIf; split <;> simp
@[simp] theorem State.queueEventIf_triggers (s : State) (b : Bool) (e : Event) : (s.queueEventIf b e).triggers = s.triggers := by unfold State.queueEventIf; split <;> simp
@[simp] theorem State.queueEventIf_lines (s : State) (b : Bool) (e : Event) : (s.queueEventIf b e).lines = s.lines := by unfold State.queueEventIf; split <;> simp
@[simp] theorem State.queueEventIf_pinLevels (s : State) (b : Bool) (e : Event) : (s.queueEventIf b e).pinLevels = s.pinLevels := by unfold State.queueEventIf; split <;> simp
@[simp] theorem State.queueEventIf_sample (s : State) (b : Bool) (e : Event) : (s.queueEventIf b e).sample = s.sample := by unfold State.queueEventIf; split <;> simp
@[simp] theorem State.queueEventIf_reference (s : State) (b : Bool) (e : Event) : (s.queueEventIf b e).reference = s.reference := by unfold State.queueEventIf; split <;> simp
@[simp] theorem State.queueEventIf_journal (s : State) (b : Bool) (e : Event) : (s.queueEventIf b e).journal = s.journal := by unfold State.queueEventIf; split <;> simp
@[simp] theorem State.queueEventIf_link (s : State) (b : Bool) (e : Event) : (s.queueEventIf b e).link = s.link := by unfold State.queueEventIf; split <;> simp
@[simp] theorem State.queueEventIf_choices (s : State) (b : Bool) (e : Event) : (s.queueEventIf b e).choices = s.choices := by unfold State.queueEventIf; split <;> simp
@[simp] theorem State.queueEventIf_pending (s : State) (b : Bool) (e : Event) : (s.queueEventIf b e).pending = s.pending := by unfold State.queueEventIf; split <;> simp

/-! ### reportLinkFault -/

@[simp] theorem State.reportLinkFault_timeline (s : State) : (s.reportLinkFault).timeline = s.timeline := by unfold State.reportLinkFault; dsimp only; split <;> simp
@[simp] theorem State.reportLinkFault_divider (s : State) : (s.reportLinkFault).divider = s.divider := by unfold State.reportLinkFault; dsimp only; split <;> simp
@[simp] theorem State.reportLinkFault_prescale (s : State) : (s.reportLinkFault).prescale = s.prescale := by unfold State.reportLinkFault; dsimp only; split <;> simp
@[simp] theorem State.reportLinkFault_phase (s : State) : (s.reportLinkFault).phase = s.phase := by unfold State.reportLinkFault; dsimp only; split <;> simp
@[simp] theorem State.reportLinkFault_cause (s : State) : (s.reportLinkFault).cause = s.cause := by unfold State.reportLinkFault; dsimp only; split <;> simp
@[simp] theorem State.reportLinkFault_straps (s : State) : (s.reportLinkFault).straps = s.straps := by unfold State.reportLinkFault; dsimp only; split <;> simp
@[simp] theorem State.reportLinkFault_linkRate (s : State) : (s.reportLinkFault).linkRate = s.linkRate := by unfold State.reportLinkFault; dsimp only; split <;> simp
@[simp] theorem State.reportLinkFault_resetPart (s : State) : (s.reportLinkFault).resetPart = s.resetPart := by unfold State.reportLinkFault; dsimp only; split <;> simp
@[simp] theorem State.reportLinkFault_session (s : State) : (s.reportLinkFault).session = s.session := by unfold State.reportLinkFault; dsimp only; split <;> simp
@[simp] theorem State.reportLinkFault_pages (s : State) : (s.reportLinkFault).pages = s.pages := by unfold State.reportLinkFault; dsimp only; split <;> simp
@[simp] theorem State.reportLinkFault_tracks (s : State) : (s.reportLinkFault).tracks = s.tracks := by unfold State.reportLinkFault; dsimp only; split <;> simp
@[simp] theorem State.reportLinkFault_triggers (s : State) : (s.reportLinkFault).triggers = s.triggers := by unfold State.reportLinkFault; dsimp only; split <;> simp
@[simp] theorem State.reportLinkFault_lines (s : State) : (s.reportLinkFault).lines = s.lines := by unfold State.reportLinkFault; dsimp only; split <;> simp
@[simp] theorem State.reportLinkFault_pinLevels (s : State) : (s.reportLinkFault).pinLevels = s.pinLevels := by unfold State.reportLinkFault; dsimp only; split <;> simp
@[simp] theorem State.reportLinkFault_sample (s : State) : (s.reportLinkFault).sample = s.sample := by unfold State.reportLinkFault; dsimp only; split <;> simp
@[simp] theorem State.reportLinkFault_reference (s : State) : (s.reportLinkFault).reference = s.reference := by unfold State.reportLinkFault; dsimp only; split <;> simp
@[simp] theorem State.reportLinkFault_journal (s : State) : (s.reportLinkFault).journal = s.journal := by unfold State.reportLinkFault; dsimp only; split <;> simp
@[simp] theorem State.reportLinkFault_choices (s : State) : (s.reportLinkFault).choices = s.choices := by unfold State.reportLinkFault; dsimp only; split <;> simp
@[simp] theorem State.reportLinkFault_pending (s : State) : (s.reportLinkFault).pending = s.pending := by unfold State.reportLinkFault; dsimp only; split <;> simp

/-! ### linkFault -/

@[simp] theorem State.linkFault_timeline (s : State) (k : LinkFaultKind) : (s.linkFault k).timeline = s.timeline := by unfold State.linkFault; dsimp only; split <;> simp
@[simp] theorem State.linkFault_divider (s : State) (k : LinkFaultKind) : (s.linkFault k).divider = s.divider := by unfold State.linkFault; dsimp only; split <;> simp
@[simp] theorem State.linkFault_prescale (s : State) (k : LinkFaultKind) : (s.linkFault k).prescale = s.prescale := by unfold State.linkFault; dsimp only; split <;> simp
@[simp] theorem State.linkFault_phase (s : State) (k : LinkFaultKind) : (s.linkFault k).phase = s.phase := by unfold State.linkFault; dsimp only; split <;> simp
@[simp] theorem State.linkFault_cause (s : State) (k : LinkFaultKind) : (s.linkFault k).cause = s.cause := by unfold State.linkFault; dsimp only; split <;> simp
@[simp] theorem State.linkFault_straps (s : State) (k : LinkFaultKind) : (s.linkFault k).straps = s.straps := by unfold State.linkFault; dsimp only; split <;> simp
@[simp] theorem State.linkFault_linkRate (s : State) (k : LinkFaultKind) : (s.linkFault k).linkRate = s.linkRate := by unfold State.linkFault; dsimp only; split <;> simp
@[simp] theorem State.linkFault_resetPart (s : State) (k : LinkFaultKind) : (s.linkFault k).resetPart = s.resetPart := by unfold State.linkFault; dsimp only; split <;> simp
@[simp] theorem State.linkFault_session (s : State) (k : LinkFaultKind) : (s.linkFault k).session = s.session := by unfold State.linkFault; dsimp only; split <;> simp
@[simp] theorem State.linkFault_pages (s : State) (k : LinkFaultKind) : (s.linkFault k).pages = s.pages := by unfold State.linkFault; dsimp only; split <;> simp
@[simp] theorem State.linkFault_tracks (s : State) (k : LinkFaultKind) : (s.linkFault k).tracks = s.tracks := by unfold State.linkFault; dsimp only; split <;> simp
@[simp] theorem State.linkFault_triggers (s : State) (k : LinkFaultKind) : (s.linkFault k).triggers = s.triggers := by unfold State.linkFault; dsimp only; split <;> simp
@[simp] theorem State.linkFault_lines (s : State) (k : LinkFaultKind) : (s.linkFault k).lines = s.lines := by unfold State.linkFault; dsimp only; split <;> simp
@[simp] theorem State.linkFault_pinLevels (s : State) (k : LinkFaultKind) : (s.linkFault k).pinLevels = s.pinLevels := by unfold State.linkFault; dsimp only; split <;> simp
@[simp] theorem State.linkFault_sample (s : State) (k : LinkFaultKind) : (s.linkFault k).sample = s.sample := by unfold State.linkFault; dsimp only; split <;> simp
@[simp] theorem State.linkFault_reference (s : State) (k : LinkFaultKind) : (s.linkFault k).reference = s.reference := by unfold State.linkFault; dsimp only; split <;> simp
@[simp] theorem State.linkFault_journal (s : State) (k : LinkFaultKind) : (s.linkFault k).journal = s.journal := by unfold State.linkFault; dsimp only; split <;> simp
@[simp] theorem State.linkFault_choices (s : State) (k : LinkFaultKind) : (s.linkFault k).choices = s.choices := by unfold State.linkFault; dsimp only; split <;> simp
@[simp] theorem State.linkFault_pending (s : State) (k : LinkFaultKind) : (s.linkFault k).pending = s.pending := by unfold State.linkFault; dsimp only; split <;> simp

/-! ### pushReply -/

@[simp] theorem State.pushReply_timeline (s : State) (r : Reply) : (s.pushReply r).timeline = s.timeline := rfl
@[simp] theorem State.pushReply_divider (s : State) (r : Reply) : (s.pushReply r).divider = s.divider := rfl
@[simp] theorem State.pushReply_prescale (s : State) (r : Reply) : (s.pushReply r).prescale = s.prescale := rfl
@[simp] theorem State.pushReply_phase (s : State) (r : Reply) : (s.pushReply r).phase = s.phase := rfl
@[simp] theorem State.pushReply_cause (s : State) (r : Reply) : (s.pushReply r).cause = s.cause := rfl
@[simp] theorem State.pushReply_straps (s : State) (r : Reply) : (s.pushReply r).straps = s.straps := rfl
@[simp] theorem State.pushReply_linkRate (s : State) (r : Reply) : (s.pushReply r).linkRate = s.linkRate := rfl
@[simp] theorem State.pushReply_resetPart (s : State) (r : Reply) : (s.pushReply r).resetPart = s.resetPart := rfl
@[simp] theorem State.pushReply_session (s : State) (r : Reply) : (s.pushReply r).session = s.session := rfl
@[simp] theorem State.pushReply_pages (s : State) (r : Reply) : (s.pushReply r).pages = s.pages := rfl
@[simp] theorem State.pushReply_tracks (s : State) (r : Reply) : (s.pushReply r).tracks = s.tracks := rfl
@[simp] theorem State.pushReply_triggers (s : State) (r : Reply) : (s.pushReply r).triggers = s.triggers := rfl
@[simp] theorem State.pushReply_lines (s : State) (r : Reply) : (s.pushReply r).lines = s.lines := rfl
@[simp] theorem State.pushReply_pinLevels (s : State) (r : Reply) : (s.pushReply r).pinLevels = s.pinLevels := rfl
@[simp] theorem State.pushReply_sample (s : State) (r : Reply) : (s.pushReply r).sample = s.sample := rfl
@[simp] theorem State.pushReply_reference (s : State) (r : Reply) : (s.pushReply r).reference = s.reference := rfl
@[simp] theorem State.pushReply_journal (s : State) (r : Reply) : (s.pushReply r).journal = s.journal := rfl
@[simp] theorem State.pushReply_events (s : State) (r : Reply) : (s.pushReply r).events = s.events := rfl
@[simp] theorem State.pushReply_choices (s : State) (r : Reply) : (s.pushReply r).choices = s.choices := rfl
@[simp] theorem State.pushReply_pending (s : State) (r : Reply) : (s.pushReply r).pending = s.pending := rfl

/-! ### cacheReply -/

@[simp] theorem State.cacheReply_timeline (s : State) (r : Reply) : (s.cacheReply r).timeline = s.timeline := by unfold State.cacheReply; split <;> rfl
@[simp] theorem State.cacheReply_divider (s : State) (r : Reply) : (s.cacheReply r).divider = s.divider := by unfold State.cacheReply; split <;> rfl
@[simp] theorem State.cacheReply_prescale (s : State) (r : Reply) : (s.cacheReply r).prescale = s.prescale := by unfold State.cacheReply; split <;> rfl
@[simp] theorem State.cacheReply_phase (s : State) (r : Reply) : (s.cacheReply r).phase = s.phase := by unfold State.cacheReply; split <;> rfl
@[simp] theorem State.cacheReply_cause (s : State) (r : Reply) : (s.cacheReply r).cause = s.cause := by unfold State.cacheReply; split <;> rfl
@[simp] theorem State.cacheReply_straps (s : State) (r : Reply) : (s.cacheReply r).straps = s.straps := by unfold State.cacheReply; split <;> rfl
@[simp] theorem State.cacheReply_linkRate (s : State) (r : Reply) : (s.cacheReply r).linkRate = s.linkRate := by unfold State.cacheReply; split <;> rfl
@[simp] theorem State.cacheReply_resetPart (s : State) (r : Reply) : (s.cacheReply r).resetPart = s.resetPart := by unfold State.cacheReply; split <;> rfl
@[simp] theorem State.cacheReply_session (s : State) (r : Reply) : (s.cacheReply r).session = s.session := by unfold State.cacheReply; split <;> rfl
@[simp] theorem State.cacheReply_pages (s : State) (r : Reply) : (s.cacheReply r).pages = s.pages := by unfold State.cacheReply; split <;> rfl
@[simp] theorem State.cacheReply_tracks (s : State) (r : Reply) : (s.cacheReply r).tracks = s.tracks := by unfold State.cacheReply; split <;> rfl
@[simp] theorem State.cacheReply_triggers (s : State) (r : Reply) : (s.cacheReply r).triggers = s.triggers := by unfold State.cacheReply; split <;> rfl
@[simp] theorem State.cacheReply_lines (s : State) (r : Reply) : (s.cacheReply r).lines = s.lines := by unfold State.cacheReply; split <;> rfl
@[simp] theorem State.cacheReply_pinLevels (s : State) (r : Reply) : (s.cacheReply r).pinLevels = s.pinLevels := by unfold State.cacheReply; split <;> rfl
@[simp] theorem State.cacheReply_sample (s : State) (r : Reply) : (s.cacheReply r).sample = s.sample := by unfold State.cacheReply; split <;> rfl
@[simp] theorem State.cacheReply_reference (s : State) (r : Reply) : (s.cacheReply r).reference = s.reference := by unfold State.cacheReply; split <;> rfl
@[simp] theorem State.cacheReply_journal (s : State) (r : Reply) : (s.cacheReply r).journal = s.journal := by unfold State.cacheReply; split <;> rfl
@[simp] theorem State.cacheReply_events (s : State) (r : Reply) : (s.cacheReply r).events = s.events := by unfold State.cacheReply; split <;> rfl
@[simp] theorem State.cacheReply_choices (s : State) (r : Reply) : (s.cacheReply r).choices = s.choices := by unfold State.cacheReply; split <;> rfl
@[simp] theorem State.cacheReply_pending (s : State) (r : Reply) : (s.cacheReply r).pending = s.pending := by unfold State.cacheReply; split <;> rfl

/-! ### defer -/

@[simp] theorem State.defer_timeline (s : State) (o : Owner) (tag : Byte) : (s.defer o tag).timeline = s.timeline := rfl
@[simp] theorem State.defer_divider (s : State) (o : Owner) (tag : Byte) : (s.defer o tag).divider = s.divider := rfl
@[simp] theorem State.defer_prescale (s : State) (o : Owner) (tag : Byte) : (s.defer o tag).prescale = s.prescale := rfl
@[simp] theorem State.defer_phase (s : State) (o : Owner) (tag : Byte) : (s.defer o tag).phase = s.phase := rfl
@[simp] theorem State.defer_cause (s : State) (o : Owner) (tag : Byte) : (s.defer o tag).cause = s.cause := rfl
@[simp] theorem State.defer_straps (s : State) (o : Owner) (tag : Byte) : (s.defer o tag).straps = s.straps := rfl
@[simp] theorem State.defer_linkRate (s : State) (o : Owner) (tag : Byte) : (s.defer o tag).linkRate = s.linkRate := rfl
@[simp] theorem State.defer_resetPart (s : State) (o : Owner) (tag : Byte) : (s.defer o tag).resetPart = s.resetPart := rfl
@[simp] theorem State.defer_session (s : State) (o : Owner) (tag : Byte) : (s.defer o tag).session = s.session := rfl
@[simp] theorem State.defer_pages (s : State) (o : Owner) (tag : Byte) : (s.defer o tag).pages = s.pages := rfl
@[simp] theorem State.defer_tracks (s : State) (o : Owner) (tag : Byte) : (s.defer o tag).tracks = s.tracks := rfl
@[simp] theorem State.defer_triggers (s : State) (o : Owner) (tag : Byte) : (s.defer o tag).triggers = s.triggers := rfl
@[simp] theorem State.defer_lines (s : State) (o : Owner) (tag : Byte) : (s.defer o tag).lines = s.lines := rfl
@[simp] theorem State.defer_pinLevels (s : State) (o : Owner) (tag : Byte) : (s.defer o tag).pinLevels = s.pinLevels := rfl
@[simp] theorem State.defer_sample (s : State) (o : Owner) (tag : Byte) : (s.defer o tag).sample = s.sample := rfl
@[simp] theorem State.defer_reference (s : State) (o : Owner) (tag : Byte) : (s.defer o tag).reference = s.reference := rfl
@[simp] theorem State.defer_journal (s : State) (o : Owner) (tag : Byte) : (s.defer o tag).journal = s.journal := rfl
@[simp] theorem State.defer_events (s : State) (o : Owner) (tag : Byte) : (s.defer o tag).events = s.events := rfl
@[simp] theorem State.defer_choices (s : State) (o : Owner) (tag : Byte) : (s.defer o tag).choices = s.choices := rfl
@[simp] theorem State.defer_pending (s : State) (o : Owner) (tag : Byte) : (s.defer o tag).pending = s.pending := rfl

/-! ### compose -/

@[simp] theorem State.compose_timeline (s : State) (o : Owner) (st : Status) (fs : List Byte) : (s.compose o st fs).timeline = s.timeline := by unfold State.compose; split <;> rfl
@[simp] theorem State.compose_divider (s : State) (o : Owner) (st : Status) (fs : List Byte) : (s.compose o st fs).divider = s.divider := by unfold State.compose; split <;> rfl
@[simp] theorem State.compose_prescale (s : State) (o : Owner) (st : Status) (fs : List Byte) : (s.compose o st fs).prescale = s.prescale := by unfold State.compose; split <;> rfl
@[simp] theorem State.compose_phase (s : State) (o : Owner) (st : Status) (fs : List Byte) : (s.compose o st fs).phase = s.phase := by unfold State.compose; split <;> rfl
@[simp] theorem State.compose_cause (s : State) (o : Owner) (st : Status) (fs : List Byte) : (s.compose o st fs).cause = s.cause := by unfold State.compose; split <;> rfl
@[simp] theorem State.compose_straps (s : State) (o : Owner) (st : Status) (fs : List Byte) : (s.compose o st fs).straps = s.straps := by unfold State.compose; split <;> rfl
@[simp] theorem State.compose_linkRate (s : State) (o : Owner) (st : Status) (fs : List Byte) : (s.compose o st fs).linkRate = s.linkRate := by unfold State.compose; split <;> rfl
@[simp] theorem State.compose_resetPart (s : State) (o : Owner) (st : Status) (fs : List Byte) : (s.compose o st fs).resetPart = s.resetPart := by unfold State.compose; split <;> rfl
@[simp] theorem State.compose_session (s : State) (o : Owner) (st : Status) (fs : List Byte) : (s.compose o st fs).session = s.session := by unfold State.compose; split <;> rfl
@[simp] theorem State.compose_pages (s : State) (o : Owner) (st : Status) (fs : List Byte) : (s.compose o st fs).pages = s.pages := by unfold State.compose; split <;> rfl
@[simp] theorem State.compose_tracks (s : State) (o : Owner) (st : Status) (fs : List Byte) : (s.compose o st fs).tracks = s.tracks := by unfold State.compose; split <;> rfl
@[simp] theorem State.compose_triggers (s : State) (o : Owner) (st : Status) (fs : List Byte) : (s.compose o st fs).triggers = s.triggers := by unfold State.compose; split <;> rfl
@[simp] theorem State.compose_lines (s : State) (o : Owner) (st : Status) (fs : List Byte) : (s.compose o st fs).lines = s.lines := by unfold State.compose; split <;> rfl
@[simp] theorem State.compose_pinLevels (s : State) (o : Owner) (st : Status) (fs : List Byte) : (s.compose o st fs).pinLevels = s.pinLevels := by unfold State.compose; split <;> rfl
@[simp] theorem State.compose_sample (s : State) (o : Owner) (st : Status) (fs : List Byte) : (s.compose o st fs).sample = s.sample := by unfold State.compose; split <;> rfl
@[simp] theorem State.compose_reference (s : State) (o : Owner) (st : Status) (fs : List Byte) : (s.compose o st fs).reference = s.reference := by unfold State.compose; split <;> rfl
@[simp] theorem State.compose_journal (s : State) (o : Owner) (st : Status) (fs : List Byte) : (s.compose o st fs).journal = s.journal := by unfold State.compose; split <;> rfl
@[simp] theorem State.compose_events (s : State) (o : Owner) (st : Status) (fs : List Byte) : (s.compose o st fs).events = s.events := by unfold State.compose; split <;> rfl
@[simp] theorem State.compose_choices (s : State) (o : Owner) (st : Status) (fs : List Byte) : (s.compose o st fs).choices = s.choices := by unfold State.compose; split <;> rfl
@[simp] theorem State.compose_pending (s : State) (o : Owner) (st : Status) (fs : List Byte) : (s.compose o st fs).pending = s.pending := by unfold State.compose; split <;> rfl

/-! ### composeAborted -/

@[simp] theorem State.composeAborted_timeline (s : State) (o : Owner) : (s.composeAborted o).timeline = s.timeline := by unfold State.composeAborted; simp
@[simp] theorem State.composeAborted_divider (s : State) (o : Owner) : (s.composeAborted o).divider = s.divider := by unfold State.composeAborted; simp
@[simp] theorem State.composeAborted_prescale (s : State) (o : Owner) : (s.composeAborted o).prescale = s.prescale := by unfold State.composeAborted; simp
@[simp] theorem State.composeAborted_phase (s : State) (o : Owner) : (s.composeAborted o).phase = s.phase := by unfold State.composeAborted; simp
@[simp] theorem State.composeAborted_cause (s : State) (o : Owner) : (s.composeAborted o).cause = s.cause := by unfold State.composeAborted; simp
@[simp] theorem State.composeAborted_straps (s : State) (o : Owner) : (s.composeAborted o).straps = s.straps := by unfold State.composeAborted; simp
@[simp] theorem State.composeAborted_linkRate (s : State) (o : Owner) : (s.composeAborted o).linkRate = s.linkRate := by unfold State.composeAborted; simp
@[simp] theorem State.composeAborted_resetPart (s : State) (o : Owner) : (s.composeAborted o).resetPart = s.resetPart := by unfold State.composeAborted; simp
@[simp] theorem State.composeAborted_session (s : State) (o : Owner) : (s.composeAborted o).session = s.session := by unfold State.composeAborted; simp
@[simp] theorem State.composeAborted_pages (s : State) (o : Owner) : (s.composeAborted o).pages = s.pages := by unfold State.composeAborted; simp
@[simp] theorem State.composeAborted_tracks (s : State) (o : Owner) : (s.composeAborted o).tracks = s.tracks := by unfold State.composeAborted; simp
@[simp] theorem State.composeAborted_triggers (s : State) (o : Owner) : (s.composeAborted o).triggers = s.triggers := by unfold State.composeAborted; simp
@[simp] theorem State.composeAborted_lines (s : State) (o : Owner) : (s.composeAborted o).lines = s.lines := by unfold State.composeAborted; simp
@[simp] theorem State.composeAborted_pinLevels (s : State) (o : Owner) : (s.composeAborted o).pinLevels = s.pinLevels := by unfold State.composeAborted; simp
@[simp] theorem State.composeAborted_sample (s : State) (o : Owner) : (s.composeAborted o).sample = s.sample := by unfold State.composeAborted; simp
@[simp] theorem State.composeAborted_reference (s : State) (o : Owner) : (s.composeAborted o).reference = s.reference := by unfold State.composeAborted; simp
@[simp] theorem State.composeAborted_journal (s : State) (o : Owner) : (s.composeAborted o).journal = s.journal := by unfold State.composeAborted; simp
@[simp] theorem State.composeAborted_events (s : State) (o : Owner) : (s.composeAborted o).events = s.events := by unfold State.composeAborted; simp
@[simp] theorem State.composeAborted_choices (s : State) (o : Owner) : (s.composeAborted o).choices = s.choices := by unfold State.composeAborted; simp
@[simp] theorem State.composeAborted_pending (s : State) (o : Owner) : (s.composeAborted o).pending = s.pending := by unfold State.composeAborted; simp

/-! ### settle -/

@[simp] theorem State.settle_timeline (s : State) (t : TrackId) (st : TrackState) : (s.settle t st).timeline = s.timeline := rfl
@[simp] theorem State.settle_divider (s : State) (t : TrackId) (st : TrackState) : (s.settle t st).divider = s.divider := rfl
@[simp] theorem State.settle_prescale (s : State) (t : TrackId) (st : TrackState) : (s.settle t st).prescale = s.prescale := rfl
@[simp] theorem State.settle_phase (s : State) (t : TrackId) (st : TrackState) : (s.settle t st).phase = s.phase := rfl
@[simp] theorem State.settle_cause (s : State) (t : TrackId) (st : TrackState) : (s.settle t st).cause = s.cause := rfl
@[simp] theorem State.settle_straps (s : State) (t : TrackId) (st : TrackState) : (s.settle t st).straps = s.straps := rfl
@[simp] theorem State.settle_linkRate (s : State) (t : TrackId) (st : TrackState) : (s.settle t st).linkRate = s.linkRate := rfl
@[simp] theorem State.settle_resetPart (s : State) (t : TrackId) (st : TrackState) : (s.settle t st).resetPart = s.resetPart := rfl
@[simp] theorem State.settle_session (s : State) (t : TrackId) (st : TrackState) : (s.settle t st).session = s.session := rfl
@[simp] theorem State.settle_pages (s : State) (t : TrackId) (st : TrackState) : (s.settle t st).pages = s.pages := rfl
@[simp] theorem State.settle_triggers (s : State) (t : TrackId) (st : TrackState) : (s.settle t st).triggers = s.triggers := rfl
@[simp] theorem State.settle_lines (s : State) (t : TrackId) (st : TrackState) : (s.settle t st).lines = s.lines := rfl
@[simp] theorem State.settle_pinLevels (s : State) (t : TrackId) (st : TrackState) : (s.settle t st).pinLevels = s.pinLevels := rfl
@[simp] theorem State.settle_sample (s : State) (t : TrackId) (st : TrackState) : (s.settle t st).sample = s.sample := rfl
@[simp] theorem State.settle_reference (s : State) (t : TrackId) (st : TrackState) : (s.settle t st).reference = s.reference := rfl
@[simp] theorem State.settle_journal (s : State) (t : TrackId) (st : TrackState) : (s.settle t st).journal = s.journal := rfl
@[simp] theorem State.settle_events (s : State) (t : TrackId) (st : TrackState) : (s.settle t st).events = s.events := rfl
@[simp] theorem State.settle_link (s : State) (t : TrackId) (st : TrackState) : (s.settle t st).link = s.link := rfl
@[simp] theorem State.settle_choices (s : State) (t : TrackId) (st : TrackState) : (s.settle t st).choices = s.choices := rfl
@[simp] theorem State.settle_pending (s : State) (t : TrackId) (st : TrackState) : (s.settle t st).pending = s.pending := rfl

/-! ### assemble -/

@[simp] theorem State.assemble_timeline (s : State) (fifo : List Byte) (a : Assembler) : (s.assemble fifo a).timeline = s.timeline := rfl
@[simp] theorem State.assemble_divider (s : State) (fifo : List Byte) (a : Assembler) : (s.assemble fifo a).divider = s.divider := rfl
@[simp] theorem State.assemble_prescale (s : State) (fifo : List Byte) (a : Assembler) : (s.assemble fifo a).prescale = s.prescale := rfl
@[simp] theorem State.assemble_phase (s : State) (fifo : List Byte) (a : Assembler) : (s.assemble fifo a).phase = s.phase := rfl
@[simp] theorem State.assemble_cause (s : State) (fifo : List Byte) (a : Assembler) : (s.assemble fifo a).cause = s.cause := rfl
@[simp] theorem State.assemble_straps (s : State) (fifo : List Byte) (a : Assembler) : (s.assemble fifo a).straps = s.straps := rfl
@[simp] theorem State.assemble_linkRate (s : State) (fifo : List Byte) (a : Assembler) : (s.assemble fifo a).linkRate = s.linkRate := rfl
@[simp] theorem State.assemble_resetPart (s : State) (fifo : List Byte) (a : Assembler) : (s.assemble fifo a).resetPart = s.resetPart := rfl
@[simp] theorem State.assemble_session (s : State) (fifo : List Byte) (a : Assembler) : (s.assemble fifo a).session = s.session := rfl
@[simp] theorem State.assemble_pages (s : State) (fifo : List Byte) (a : Assembler) : (s.assemble fifo a).pages = s.pages := rfl
@[simp] theorem State.assemble_tracks (s : State) (fifo : List Byte) (a : Assembler) : (s.assemble fifo a).tracks = s.tracks := rfl
@[simp] theorem State.assemble_triggers (s : State) (fifo : List Byte) (a : Assembler) : (s.assemble fifo a).triggers = s.triggers := rfl
@[simp] theorem State.assemble_lines (s : State) (fifo : List Byte) (a : Assembler) : (s.assemble fifo a).lines = s.lines := rfl
@[simp] theorem State.assemble_pinLevels (s : State) (fifo : List Byte) (a : Assembler) : (s.assemble fifo a).pinLevels = s.pinLevels := rfl
@[simp] theorem State.assemble_sample (s : State) (fifo : List Byte) (a : Assembler) : (s.assemble fifo a).sample = s.sample := rfl
@[simp] theorem State.assemble_reference (s : State) (fifo : List Byte) (a : Assembler) : (s.assemble fifo a).reference = s.reference := rfl
@[simp] theorem State.assemble_journal (s : State) (fifo : List Byte) (a : Assembler) : (s.assemble fifo a).journal = s.journal := rfl
@[simp] theorem State.assemble_events (s : State) (fifo : List Byte) (a : Assembler) : (s.assemble fifo a).events = s.events := rfl
@[simp] theorem State.assemble_choices (s : State) (fifo : List Byte) (a : Assembler) : (s.assemble fifo a).choices = s.choices := rfl
@[simp] theorem State.assemble_pending (s : State) (fifo : List Byte) (a : Assembler) : (s.assemble fifo a).pending = s.pending := rfl

/-! ### send -/

@[simp] theorem State.send_timeline (s : State) (f : Frame) : (s.send f).timeline = s.timeline := rfl
@[simp] theorem State.send_divider (s : State) (f : Frame) : (s.send f).divider = s.divider := rfl
@[simp] theorem State.send_prescale (s : State) (f : Frame) : (s.send f).prescale = s.prescale := rfl
@[simp] theorem State.send_phase (s : State) (f : Frame) : (s.send f).phase = s.phase := rfl
@[simp] theorem State.send_cause (s : State) (f : Frame) : (s.send f).cause = s.cause := rfl
@[simp] theorem State.send_straps (s : State) (f : Frame) : (s.send f).straps = s.straps := rfl
@[simp] theorem State.send_linkRate (s : State) (f : Frame) : (s.send f).linkRate = s.linkRate := rfl
@[simp] theorem State.send_resetPart (s : State) (f : Frame) : (s.send f).resetPart = s.resetPart := rfl
@[simp] theorem State.send_session (s : State) (f : Frame) : (s.send f).session = s.session := rfl
@[simp] theorem State.send_pages (s : State) (f : Frame) : (s.send f).pages = s.pages := rfl
@[simp] theorem State.send_tracks (s : State) (f : Frame) : (s.send f).tracks = s.tracks := rfl
@[simp] theorem State.send_triggers (s : State) (f : Frame) : (s.send f).triggers = s.triggers := rfl
@[simp] theorem State.send_lines (s : State) (f : Frame) : (s.send f).lines = s.lines := rfl
@[simp] theorem State.send_pinLevels (s : State) (f : Frame) : (s.send f).pinLevels = s.pinLevels := rfl
@[simp] theorem State.send_sample (s : State) (f : Frame) : (s.send f).sample = s.sample := rfl
@[simp] theorem State.send_reference (s : State) (f : Frame) : (s.send f).reference = s.reference := rfl
@[simp] theorem State.send_journal (s : State) (f : Frame) : (s.send f).journal = s.journal := rfl
@[simp] theorem State.send_events (s : State) (f : Frame) : (s.send f).events = s.events := rfl
@[simp] theorem State.send_choices (s : State) (f : Frame) : (s.send f).choices = s.choices := rfl
@[simp] theorem State.send_pending (s : State) (f : Frame) : (s.send f).pending = s.pending := rfl

/-! ### restartSilence -/

@[simp] theorem State.restartSilence_timeline (s : State) : (s.restartSilence).timeline = s.timeline := by unfold State.restartSilence; split <;> rfl
@[simp] theorem State.restartSilence_divider (s : State) : (s.restartSilence).divider = s.divider := by unfold State.restartSilence; split <;> rfl
@[simp] theorem State.restartSilence_prescale (s : State) : (s.restartSilence).prescale = s.prescale := by unfold State.restartSilence; split <;> rfl
@[simp] theorem State.restartSilence_phase (s : State) : (s.restartSilence).phase = s.phase := by unfold State.restartSilence; split <;> rfl
@[simp] theorem State.restartSilence_cause (s : State) : (s.restartSilence).cause = s.cause := by unfold State.restartSilence; split <;> rfl
@[simp] theorem State.restartSilence_straps (s : State) : (s.restartSilence).straps = s.straps := by unfold State.restartSilence; split <;> rfl
@[simp] theorem State.restartSilence_linkRate (s : State) : (s.restartSilence).linkRate = s.linkRate := by unfold State.restartSilence; split <;> rfl
@[simp] theorem State.restartSilence_resetPart (s : State) : (s.restartSilence).resetPart = s.resetPart := by unfold State.restartSilence; split <;> rfl
@[simp] theorem State.restartSilence_pages (s : State) : (s.restartSilence).pages = s.pages := by unfold State.restartSilence; split <;> rfl
@[simp] theorem State.restartSilence_tracks (s : State) : (s.restartSilence).tracks = s.tracks := by unfold State.restartSilence; split <;> rfl
@[simp] theorem State.restartSilence_triggers (s : State) : (s.restartSilence).triggers = s.triggers := by unfold State.restartSilence; split <;> rfl
@[simp] theorem State.restartSilence_lines (s : State) : (s.restartSilence).lines = s.lines := by unfold State.restartSilence; split <;> rfl
@[simp] theorem State.restartSilence_pinLevels (s : State) : (s.restartSilence).pinLevels = s.pinLevels := by unfold State.restartSilence; split <;> rfl
@[simp] theorem State.restartSilence_sample (s : State) : (s.restartSilence).sample = s.sample := by unfold State.restartSilence; split <;> rfl
@[simp] theorem State.restartSilence_reference (s : State) : (s.restartSilence).reference = s.reference := by unfold State.restartSilence; split <;> rfl
@[simp] theorem State.restartSilence_journal (s : State) : (s.restartSilence).journal = s.journal := by unfold State.restartSilence; split <;> rfl
@[simp] theorem State.restartSilence_events (s : State) : (s.restartSilence).events = s.events := by unfold State.restartSilence; split <;> rfl
@[simp] theorem State.restartSilence_link (s : State) : (s.restartSilence).link = s.link := by unfold State.restartSilence; split <;> rfl
@[simp] theorem State.restartSilence_choices (s : State) : (s.restartSilence).choices = s.choices := by unfold State.restartSilence; split <;> rfl
@[simp] theorem State.restartSilence_pending (s : State) : (s.restartSilence).pending = s.pending := by unfold State.restartSilence; split <;> rfl

/-! ### retire -/

@[simp] theorem State.retire_timeline (s : State) (t : TrackId) (p : Playback) (o : RetireOutcome) : (s.retire t p o).timeline = s.timeline := by simp [State.retire]
@[simp] theorem State.retire_divider (s : State) (t : TrackId) (p : Playback) (o : RetireOutcome) : (s.retire t p o).divider = s.divider := by simp [State.retire]
@[simp] theorem State.retire_prescale (s : State) (t : TrackId) (p : Playback) (o : RetireOutcome) : (s.retire t p o).prescale = s.prescale := by simp [State.retire]
@[simp] theorem State.retire_phase (s : State) (t : TrackId) (p : Playback) (o : RetireOutcome) : (s.retire t p o).phase = s.phase := by simp [State.retire]
@[simp] theorem State.retire_cause (s : State) (t : TrackId) (p : Playback) (o : RetireOutcome) : (s.retire t p o).cause = s.cause := by simp [State.retire]
@[simp] theorem State.retire_straps (s : State) (t : TrackId) (p : Playback) (o : RetireOutcome) : (s.retire t p o).straps = s.straps := by simp [State.retire]
@[simp] theorem State.retire_linkRate (s : State) (t : TrackId) (p : Playback) (o : RetireOutcome) : (s.retire t p o).linkRate = s.linkRate := by simp [State.retire]
@[simp] theorem State.retire_resetPart (s : State) (t : TrackId) (p : Playback) (o : RetireOutcome) : (s.retire t p o).resetPart = s.resetPart := by simp [State.retire]
@[simp] theorem State.retire_session (s : State) (t : TrackId) (p : Playback) (o : RetireOutcome) : (s.retire t p o).session = s.session := by simp [State.retire]
@[simp] theorem State.retire_tracks (s : State) (t : TrackId) (p : Playback) (o : RetireOutcome) : (s.retire t p o).tracks = s.tracks := by simp [State.retire]
@[simp] theorem State.retire_triggers (s : State) (t : TrackId) (p : Playback) (o : RetireOutcome) : (s.retire t p o).triggers = s.triggers := by simp [State.retire]
@[simp] theorem State.retire_lines (s : State) (t : TrackId) (p : Playback) (o : RetireOutcome) : (s.retire t p o).lines = s.lines := by simp [State.retire]
@[simp] theorem State.retire_pinLevels (s : State) (t : TrackId) (p : Playback) (o : RetireOutcome) : (s.retire t p o).pinLevels = s.pinLevels := by simp [State.retire]
@[simp] theorem State.retire_sample (s : State) (t : TrackId) (p : Playback) (o : RetireOutcome) : (s.retire t p o).sample = s.sample := by simp [State.retire]
@[simp] theorem State.retire_reference (s : State) (t : TrackId) (p : Playback) (o : RetireOutcome) : (s.retire t p o).reference = s.reference := by simp [State.retire]
@[simp] theorem State.retire_journal (s : State) (t : TrackId) (p : Playback) (o : RetireOutcome) : (s.retire t p o).journal = s.journal := by simp [State.retire]
@[simp] theorem State.retire_link (s : State) (t : TrackId) (p : Playback) (o : RetireOutcome) : (s.retire t p o).link = s.link := by simp [State.retire]
@[simp] theorem State.retire_choices (s : State) (t : TrackId) (p : Playback) (o : RetireOutcome) : (s.retire t p o).choices = s.choices := by simp [State.retire]
@[simp] theorem State.retire_pending (s : State) (t : TrackId) (p : Playback) (o : RetireOutcome) : (s.retire t p o).pending = s.pending := by simp [State.retire]

/-! ### applyPending -/

@[simp] theorem State.applyPending_timeline (s : State) (t : TrackId) : (s.applyPending t).timeline = s.timeline := by unfold State.applyPending; split <;> simp
@[simp] theorem State.applyPending_divider (s : State) (t : TrackId) : (s.applyPending t).divider = s.divider := by unfold State.applyPending; split <;> simp
@[simp] theorem State.applyPending_prescale (s : State) (t : TrackId) : (s.applyPending t).prescale = s.prescale := by unfold State.applyPending; split <;> simp
@[simp] theorem State.applyPending_phase (s : State) (t : TrackId) : (s.applyPending t).phase = s.phase := by unfold State.applyPending; split <;> simp
@[simp] theorem State.applyPending_cause (s : State) (t : TrackId) : (s.applyPending t).cause = s.cause := by unfold State.applyPending; split <;> simp
@[simp] theorem State.applyPending_straps (s : State) (t : TrackId) : (s.applyPending t).straps = s.straps := by unfold State.applyPending; split <;> simp
@[simp] theorem State.applyPending_linkRate (s : State) (t : TrackId) : (s.applyPending t).linkRate = s.linkRate := by unfold State.applyPending; split <;> simp
@[simp] theorem State.applyPending_resetPart (s : State) (t : TrackId) : (s.applyPending t).resetPart = s.resetPart := by unfold State.applyPending; split <;> simp
@[simp] theorem State.applyPending_session (s : State) (t : TrackId) : (s.applyPending t).session = s.session := by unfold State.applyPending; split <;> simp
@[simp] theorem State.applyPending_pages (s : State) (t : TrackId) : (s.applyPending t).pages = s.pages := by unfold State.applyPending; split <;> simp
@[simp] theorem State.applyPending_triggers (s : State) (t : TrackId) : (s.applyPending t).triggers = s.triggers := by unfold State.applyPending; split <;> simp
@[simp] theorem State.applyPending_pinLevels (s : State) (t : TrackId) : (s.applyPending t).pinLevels = s.pinLevels := by unfold State.applyPending; split <;> simp
@[simp] theorem State.applyPending_sample (s : State) (t : TrackId) : (s.applyPending t).sample = s.sample := by unfold State.applyPending; split <;> simp
@[simp] theorem State.applyPending_reference (s : State) (t : TrackId) : (s.applyPending t).reference = s.reference := by unfold State.applyPending; split <;> simp
@[simp] theorem State.applyPending_journal (s : State) (t : TrackId) : (s.applyPending t).journal = s.journal := by unfold State.applyPending; split <;> simp
@[simp] theorem State.applyPending_events (s : State) (t : TrackId) : (s.applyPending t).events = s.events := by unfold State.applyPending; split <;> simp
@[simp] theorem State.applyPending_link (s : State) (t : TrackId) : (s.applyPending t).link = s.link := by unfold State.applyPending; split <;> simp
@[simp] theorem State.applyPending_choices (s : State) (t : TrackId) : (s.applyPending t).choices = s.choices := by unfold State.applyPending; split <;> simp
@[simp] theorem State.applyPending_pending (s : State) (t : TrackId) : (s.applyPending t).pending = s.pending := by unfold State.applyPending; split <;> simp

/-! ### makeActive -/

@[simp] theorem State.makeActive_timeline (s : State) (t : TrackId) (a : Stamp) (b : Bool) : (s.makeActive t a b).timeline = s.timeline := by unfold State.makeActive; split <;> simp
@[simp] theorem State.makeActive_divider (s : State) (t : TrackId) (a : Stamp) (b : Bool) : (s.makeActive t a b).divider = s.divider := by unfold State.makeActive; split <;> simp
@[simp] theorem State.makeActive_prescale (s : State) (t : TrackId) (a : Stamp) (b : Bool) : (s.makeActive t a b).prescale = s.prescale := by unfold State.makeActive; split <;> simp
@[simp] theorem State.makeActive_phase (s : State) (t : TrackId) (a : Stamp) (b : Bool) : (s.makeActive t a b).phase = s.phase := by unfold State.makeActive; split <;> simp
@[simp] theorem State.makeActive_cause (s : State) (t : TrackId) (a : Stamp) (b : Bool) : (s.makeActive t a b).cause = s.cause := by unfold State.makeActive; split <;> simp
@[simp] theorem State.makeActive_straps (s : State) (t : TrackId) (a : Stamp) (b : Bool) : (s.makeActive t a b).straps = s.straps := by unfold State.makeActive; split <;> simp
@[simp] theorem State.makeActive_linkRate (s : State) (t : TrackId) (a : Stamp) (b : Bool) : (s.makeActive t a b).linkRate = s.linkRate := by unfold State.makeActive; split <;> simp
@[simp] theorem State.makeActive_resetPart (s : State) (t : TrackId) (a : Stamp) (b : Bool) : (s.makeActive t a b).resetPart = s.resetPart := by unfold State.makeActive; split <;> simp
@[simp] theorem State.makeActive_session (s : State) (t : TrackId) (a : Stamp) (b : Bool) : (s.makeActive t a b).session = s.session := by unfold State.makeActive; split <;> simp
@[simp] theorem State.makeActive_triggers (s : State) (t : TrackId) (a : Stamp) (b : Bool) : (s.makeActive t a b).triggers = s.triggers := by unfold State.makeActive; split <;> simp
@[simp] theorem State.makeActive_lines (s : State) (t : TrackId) (a : Stamp) (b : Bool) : (s.makeActive t a b).lines = s.lines := by unfold State.makeActive; split <;> simp
@[simp] theorem State.makeActive_pinLevels (s : State) (t : TrackId) (a : Stamp) (b : Bool) : (s.makeActive t a b).pinLevels = s.pinLevels := by unfold State.makeActive; split <;> simp
@[simp] theorem State.makeActive_sample (s : State) (t : TrackId) (a : Stamp) (b : Bool) : (s.makeActive t a b).sample = s.sample := by unfold State.makeActive; split <;> simp
@[simp] theorem State.makeActive_reference (s : State) (t : TrackId) (a : Stamp) (b : Bool) : (s.makeActive t a b).reference = s.reference := by unfold State.makeActive; split <;> simp
@[simp] theorem State.makeActive_journal (s : State) (t : TrackId) (a : Stamp) (b : Bool) : (s.makeActive t a b).journal = s.journal := by unfold State.makeActive; split <;> simp
@[simp] theorem State.makeActive_link (s : State) (t : TrackId) (a : Stamp) (b : Bool) : (s.makeActive t a b).link = s.link := by unfold State.makeActive; split <;> simp
@[simp] theorem State.makeActive_choices (s : State) (t : TrackId) (a : Stamp) (b : Bool) : (s.makeActive t a b).choices = s.choices := by unfold State.makeActive; split <;> simp
@[simp] theorem State.makeActive_pending (s : State) (t : TrackId) (a : Stamp) (b : Bool) : (s.makeActive t a b).pending = s.pending := by unfold State.makeActive; split <;> simp

/-! ### cancelStart -/

@[simp] theorem State.cancelStart_timeline (s : State) (t : TrackId) (r : CancelReason) : (s.cancelStart t r).timeline = s.timeline := by simp [State.cancelStart]
@[simp] theorem State.cancelStart_divider (s : State) (t : TrackId) (r : CancelReason) : (s.cancelStart t r).divider = s.divider := by simp [State.cancelStart]
@[simp] theorem State.cancelStart_prescale (s : State) (t : TrackId) (r : CancelReason) : (s.cancelStart t r).prescale = s.prescale := by simp [State.cancelStart]
@[simp] theorem State.cancelStart_phase (s : State) (t : TrackId) (r : CancelReason) : (s.cancelStart t r).phase = s.phase := by simp [State.cancelStart]
@[simp] theorem State.cancelStart_cause (s : State) (t : TrackId) (r : CancelReason) : (s.cancelStart t r).cause = s.cause := by simp [State.cancelStart]
@[simp] theorem State.cancelStart_straps (s : State) (t : TrackId) (r : CancelReason) : (s.cancelStart t r).straps = s.straps := by simp [State.cancelStart]
@[simp] theorem State.cancelStart_linkRate (s : State) (t : TrackId) (r : CancelReason) : (s.cancelStart t r).linkRate = s.linkRate := by simp [State.cancelStart]
@[simp] theorem State.cancelStart_resetPart (s : State) (t : TrackId) (r : CancelReason) : (s.cancelStart t r).resetPart = s.resetPart := by simp [State.cancelStart]
@[simp] theorem State.cancelStart_session (s : State) (t : TrackId) (r : CancelReason) : (s.cancelStart t r).session = s.session := by simp [State.cancelStart]
@[simp] theorem State.cancelStart_pages (s : State) (t : TrackId) (r : CancelReason) : (s.cancelStart t r).pages = s.pages := by simp [State.cancelStart]
@[simp] theorem State.cancelStart_triggers (s : State) (t : TrackId) (r : CancelReason) : (s.cancelStart t r).triggers = s.triggers := by simp [State.cancelStart]
@[simp] theorem State.cancelStart_lines (s : State) (t : TrackId) (r : CancelReason) : (s.cancelStart t r).lines = s.lines := by simp [State.cancelStart]
@[simp] theorem State.cancelStart_pinLevels (s : State) (t : TrackId) (r : CancelReason) : (s.cancelStart t r).pinLevels = s.pinLevels := by simp [State.cancelStart]
@[simp] theorem State.cancelStart_sample (s : State) (t : TrackId) (r : CancelReason) : (s.cancelStart t r).sample = s.sample := by simp [State.cancelStart]
@[simp] theorem State.cancelStart_reference (s : State) (t : TrackId) (r : CancelReason) : (s.cancelStart t r).reference = s.reference := by simp [State.cancelStart]
@[simp] theorem State.cancelStart_journal (s : State) (t : TrackId) (r : CancelReason) : (s.cancelStart t r).journal = s.journal := by simp [State.cancelStart]
@[simp] theorem State.cancelStart_choices (s : State) (t : TrackId) (r : CancelReason) : (s.cancelStart t r).choices = s.choices := by simp [State.cancelStart]
@[simp] theorem State.cancelStart_pending (s : State) (t : TrackId) (r : CancelReason) : (s.cancelStart t r).pending = s.pending := by simp [State.cancelStart]

/-! ### consume -/

@[simp] theorem State.consume_timeline (s : State) (k : TriggerId) : (s.consume k).timeline = s.timeline := by unfold State.consume; split <;> (try split) <;> rfl
@[simp] theorem State.consume_divider (s : State) (k : TriggerId) : (s.consume k).divider = s.divider := by unfold State.consume; split <;> (try split) <;> rfl
@[simp] theorem State.consume_prescale (s : State) (k : TriggerId) : (s.consume k).prescale = s.prescale := by unfold State.consume; split <;> (try split) <;> rfl
@[simp] theorem State.consume_phase (s : State) (k : TriggerId) : (s.consume k).phase = s.phase := by unfold State.consume; split <;> (try split) <;> rfl
@[simp] theorem State.consume_cause (s : State) (k : TriggerId) : (s.consume k).cause = s.cause := by unfold State.consume; split <;> (try split) <;> rfl
@[simp] theorem State.consume_straps (s : State) (k : TriggerId) : (s.consume k).straps = s.straps := by unfold State.consume; split <;> (try split) <;> rfl
@[simp] theorem State.consume_linkRate (s : State) (k : TriggerId) : (s.consume k).linkRate = s.linkRate := by unfold State.consume; split <;> (try split) <;> rfl
@[simp] theorem State.consume_resetPart (s : State) (k : TriggerId) : (s.consume k).resetPart = s.resetPart := by unfold State.consume; split <;> (try split) <;> rfl
@[simp] theorem State.consume_session (s : State) (k : TriggerId) : (s.consume k).session = s.session := by unfold State.consume; split <;> (try split) <;> rfl
@[simp] theorem State.consume_pages (s : State) (k : TriggerId) : (s.consume k).pages = s.pages := by unfold State.consume; split <;> (try split) <;> rfl
@[simp] theorem State.consume_tracks (s : State) (k : TriggerId) : (s.consume k).tracks = s.tracks := by unfold State.consume; split <;> (try split) <;> rfl
@[simp] theorem State.consume_lines (s : State) (k : TriggerId) : (s.consume k).lines = s.lines := by unfold State.consume; split <;> (try split) <;> rfl
@[simp] theorem State.consume_pinLevels (s : State) (k : TriggerId) : (s.consume k).pinLevels = s.pinLevels := by unfold State.consume; split <;> (try split) <;> rfl
@[simp] theorem State.consume_sample (s : State) (k : TriggerId) : (s.consume k).sample = s.sample := by unfold State.consume; split <;> (try split) <;> rfl
@[simp] theorem State.consume_reference (s : State) (k : TriggerId) : (s.consume k).reference = s.reference := by unfold State.consume; split <;> (try split) <;> rfl
@[simp] theorem State.consume_journal (s : State) (k : TriggerId) : (s.consume k).journal = s.journal := by unfold State.consume; split <;> (try split) <;> rfl
@[simp] theorem State.consume_events (s : State) (k : TriggerId) : (s.consume k).events = s.events := by unfold State.consume; split <;> (try split) <;> rfl
@[simp] theorem State.consume_link (s : State) (k : TriggerId) : (s.consume k).link = s.link := by unfold State.consume; split <;> (try split) <;> rfl
@[simp] theorem State.consume_choices (s : State) (k : TriggerId) : (s.consume k).choices = s.choices := by unfold State.consume; split <;> (try split) <;> rfl
@[simp] theorem State.consume_pending (s : State) (k : TriggerId) : (s.consume k).pending = s.pending := by unfold State.consume; split <;> (try split) <;> rfl

/-! ### releaseTrack -/

@[simp] theorem State.releaseTrack_timeline (s : State) (f c : Stamp) (t : TrackId) : (s.releaseTrack f c t).timeline = s.timeline := rfl
@[simp] theorem State.releaseTrack_divider (s : State) (f c : Stamp) (t : TrackId) : (s.releaseTrack f c t).divider = s.divider := rfl
@[simp] theorem State.releaseTrack_prescale (s : State) (f c : Stamp) (t : TrackId) : (s.releaseTrack f c t).prescale = s.prescale := rfl
@[simp] theorem State.releaseTrack_phase (s : State) (f c : Stamp) (t : TrackId) : (s.releaseTrack f c t).phase = s.phase := rfl
@[simp] theorem State.releaseTrack_cause (s : State) (f c : Stamp) (t : TrackId) : (s.releaseTrack f c t).cause = s.cause := rfl
@[simp] theorem State.releaseTrack_straps (s : State) (f c : Stamp) (t : TrackId) : (s.releaseTrack f c t).straps = s.straps := rfl
@[simp] theorem State.releaseTrack_linkRate (s : State) (f c : Stamp) (t : TrackId) : (s.releaseTrack f c t).linkRate = s.linkRate := rfl
@[simp] theorem State.releaseTrack_resetPart (s : State) (f c : Stamp) (t : TrackId) : (s.releaseTrack f c t).resetPart = s.resetPart := rfl
@[simp] theorem State.releaseTrack_session (s : State) (f c : Stamp) (t : TrackId) : (s.releaseTrack f c t).session = s.session := rfl
@[simp] theorem State.releaseTrack_pages (s : State) (f c : Stamp) (t : TrackId) : (s.releaseTrack f c t).pages = s.pages := rfl
@[simp] theorem State.releaseTrack_triggers (s : State) (f c : Stamp) (t : TrackId) : (s.releaseTrack f c t).triggers = s.triggers := rfl
@[simp] theorem State.releaseTrack_lines (s : State) (f c : Stamp) (t : TrackId) : (s.releaseTrack f c t).lines = s.lines := rfl
@[simp] theorem State.releaseTrack_pinLevels (s : State) (f c : Stamp) (t : TrackId) : (s.releaseTrack f c t).pinLevels = s.pinLevels := rfl
@[simp] theorem State.releaseTrack_sample (s : State) (f c : Stamp) (t : TrackId) : (s.releaseTrack f c t).sample = s.sample := rfl
@[simp] theorem State.releaseTrack_reference (s : State) (f c : Stamp) (t : TrackId) : (s.releaseTrack f c t).reference = s.reference := rfl
@[simp] theorem State.releaseTrack_journal (s : State) (f c : Stamp) (t : TrackId) : (s.releaseTrack f c t).journal = s.journal := rfl
@[simp] theorem State.releaseTrack_events (s : State) (f c : Stamp) (t : TrackId) : (s.releaseTrack f c t).events = s.events := rfl
@[simp] theorem State.releaseTrack_link (s : State) (f c : Stamp) (t : TrackId) : (s.releaseTrack f c t).link = s.link := rfl
@[simp] theorem State.releaseTrack_choices (s : State) (f c : Stamp) (t : TrackId) : (s.releaseTrack f c t).choices = s.choices := rfl
@[simp] theorem State.releaseTrack_pending (s : State) (f c : Stamp) (t : TrackId) : (s.releaseTrack f c t).pending = s.pending := rfl

/-! ### What an update writes -/

@[simp] theorem State.modifyTrack_self (s : State) (t : TrackId) (f : Track → Track) :
    (s.modifyTrack t f).tracks[t] = f s.tracks[t] := by simp [State.modifyTrack]

theorem State.modifyTrack_other (s : State) (t u : TrackId) (f : Track → Track) (h : t ≠ u) :
    (s.modifyTrack t f).tracks[u] = s.tracks[u] := by
  simp [State.modifyTrack, Fin.val_ne_of_ne h]

@[simp] theorem State.modifyPage_self (s : State) (p : PageId) (f : Page → Page) :
    (s.modifyPage p f).pages[p] = f s.pages[p] := by simp [State.modifyPage]

theorem State.modifyPage_other (s : State) (p q : PageId) (f : Page → Page) (h : p ≠ q) :
    (s.modifyPage p f).pages[q] = s.pages[q] := by
  simp [State.modifyPage, Fin.val_ne_of_ne h]

@[simp] theorem State.modifyTrigger_self (s : State) (k : TriggerId) (f : Trigger → Trigger) :
    (s.modifyTrigger k f).triggers[k] = f s.triggers[k] := by simp [State.modifyTrigger]

theorem State.modifyTrigger_other (s : State) (k j : TriggerId) (f : Trigger → Trigger) (h : k ≠ j) :
    (s.modifyTrigger k f).triggers[j] = s.triggers[j] := by
  simp [State.modifyTrigger, Fin.val_ne_of_ne h]

@[simp] theorem State.modifyLine_self (s : State) (l : LineId) (f : Line → Line) :
    (s.modifyLine l f).lines[l] = f s.lines[l] := by simp [State.modifyLine]

theorem State.modifyLine_other (s : State) (l m : LineId) (f : Line → Line) (h : l ≠ m) :
    (s.modifyLine l f).lines[m] = s.lines[m] := by
  simp [State.modifyLine, Fin.val_ne_of_ne h]

/-- A line of the set is changed, a line outside it is not. -/
theorem State.mapLines_get (s : State) (m : LineSet) (f : LineId → Line → Line) (l : LineId) :
    (s.mapLines m f).lines[l] = if m.getLsbD l.val then f l s.lines[l] else s.lines[l] := by
  simp [State.mapLines]

/-! simp writes an index that is an id as a natural number, so the same facts are stated there too. -/

@[simp] theorem State.modifyTrack_val (s : State) (t : TrackId) (f : Track → Track) :
    (s.modifyTrack t f).tracks[t.val] = f s.tracks[t.val] := s.modifyTrack_self t f

@[simp] theorem State.modifyPage_val (s : State) (p : PageId) (f : Page → Page) :
    (s.modifyPage p f).pages[p.val] = f s.pages[p.val] := s.modifyPage_self p f

@[simp] theorem State.modifyTrigger_val (s : State) (k : TriggerId) (f : Trigger → Trigger) :
    (s.modifyTrigger k f).triggers[k.val] = f s.triggers[k.val] := s.modifyTrigger_self k f

@[simp] theorem State.modifyLine_val (s : State) (l : LineId) (f : Line → Line) :
    (s.modifyLine l f).lines[l.val] = f s.lines[l.val] := s.modifyLine_self l f

@[simp] theorem State.setTrackState_val (s : State) (t : TrackId) (st : TrackState) :
    (s.setTrackState t st).tracks[t.val] = { s.tracks[t.val] with state := st } :=
  s.modifyTrack_self t fun tr => { tr with state := st }

@[simp] theorem State.setLatch_val (s : State) (k : TriggerId) (latch : Latch) :
    (s.setLatch k latch).triggers[k.val] = { s.triggers[k.val] with latch := latch } :=
  s.modifyTrigger_self k fun tr => { tr with latch := latch }

@[simp] theorem State.isOpen_queueEvent (s : State) (e : Event) : (s.queueEvent e).isOpen = s.isOpen := by
  simp [State.isOpen]

end Sys2Proof.Machine
end

