-- ==== Sys2Proof/Laws/Clock.lean ====
section
/-! SUPPORT. The passing of time: what base clock periods leave unchanged, and a timed command at its moment. -/

namespace Sys2Proof.Machine

/-- A timed command whose action is due after d periods, with nothing before it, acts on the state d periods later. -/
theorem State.atDue_of_dueAfter {s : State} {c : Instr} {d : Nat} (h : s.dueAfter c d) (act : State → State) :
    s.atDue c act = act (s.afterPeriods d) := by
  obtain ⟨hd, hb⟩ := h
  cases d with
  | zero => simp [State.atDue, hd, State.afterPeriods]
  | succ n => simp [State.atDue, hd, hb, State.afterPeriods]

/-- A timed command whose action is not scheduled changes nothing. -/
theorem State.atDue_none {s : State} {c : Instr} (h : s.due c = none) (act : State → State) : s.atDue c act = s := by
  simp [State.atDue, h]

/-- The wait until a tick, as the statements speak of it. -/
theorem State.periodsUntil_eq_periodsTo (s : State) (x : Stamp) : s.periodsUntil x = s.periodsTo x := by
  simp [State.periodsUntil, State.periodsTo, ahead]

/-- The gap timer's limit at each link rate. -/
theorem gapLimit_eq_gapPeriods (rate : BitVec 2) : gapLimit rate = gapPeriods rate :=
  (by decide +kernel : ∀ rate : BitVec 2, gapLimit rate = gapPeriods rate) rate

/-- What periods of the base clock change: the timeline and the counters that run. -/
theorem State.afterPeriods_frame (s : State) (d : Nat) :
    s.afterPeriods d = { s with
      timeline := (s.afterPeriods d).timeline
      prescale := (s.afterPeriods d).prescale
      phase := (s.afterPeriods d).phase
      session := { s.session with silence := (s.afterPeriods d).session.silence }
      journal := { s.journal with waiting := (s.afterPeriods d).journal.waiting }
      link := { s.link with
        sinceByte := (s.afterPeriods d).link.sinceByte
        txd := (s.afterPeriods d).link.txd } } := by
  unfold State.afterPeriods State.advance
  split
  · rfl
  · split <;> rfl

@[simp] theorem State.afterPeriods_divider (s : State) (d : Nat) : (s.afterPeriods d).divider = s.divider := by
  rw [State.afterPeriods_frame]
@[simp] theorem State.afterPeriods_cause (s : State) (d : Nat) : (s.afterPeriods d).cause = s.cause := by
  rw [State.afterPeriods_frame]
@[simp] theorem State.afterPeriods_straps (s : State) (d : Nat) : (s.afterPeriods d).straps = s.straps := by
  rw [State.afterPeriods_frame]
@[simp] theorem State.afterPeriods_linkRate (s : State) (d : Nat) : (s.afterPeriods d).linkRate = s.linkRate := by
  rw [State.afterPeriods_frame]
@[simp] theorem State.afterPeriods_resetPart (s : State) (d : Nat) : (s.afterPeriods d).resetPart = s.resetPart := by
  rw [State.afterPeriods_frame]
@[simp] theorem State.afterPeriods_pages (s : State) (d : Nat) : (s.afterPeriods d).pages = s.pages := by
  rw [State.afterPeriods_frame]
@[simp] theorem State.afterPeriods_tracks (s : State) (d : Nat) : (s.afterPeriods d).tracks = s.tracks := by
  rw [State.afterPeriods_frame]
@[simp] theorem State.afterPeriods_triggers (s : State) (d : Nat) : (s.afterPeriods d).triggers = s.triggers := by
  rw [State.afterPeriods_frame]
@[simp] theorem State.afterPeriods_lines (s : State) (d : Nat) : (s.afterPeriods d).lines = s.lines := by
  rw [State.afterPeriods_frame]
@[simp] theorem State.afterPeriods_pinLevels (s : State) (d : Nat) : (s.afterPeriods d).pinLevels = s.pinLevels := by
  rw [State.afterPeriods_frame]
@[simp] theorem State.afterPeriods_sample (s : State) (d : Nat) : (s.afterPeriods d).sample = s.sample := by
  rw [State.afterPeriods_frame]
@[simp] theorem State.afterPeriods_reference (s : State) (d : Nat) : (s.afterPeriods d).reference = s.reference := by
  rw [State.afterPeriods_frame]
@[simp] theorem State.afterPeriods_events (s : State) (d : Nat) : (s.afterPeriods d).events = s.events := by
  rw [State.afterPeriods_frame]
@[simp] theorem State.afterPeriods_choices (s : State) (d : Nat) : (s.afterPeriods d).choices = s.choices := by
  rw [State.afterPeriods_frame]
@[simp] theorem State.afterPeriods_pending (s : State) (d : Nat) : (s.afterPeriods d).pending = s.pending := by
  rw [State.afterPeriods_frame]
@[simp] theorem State.afterPeriods_session_status (s : State) (d : Nat) : (s.afterPeriods d).session.status = s.session.status := by
  rw [State.afterPeriods_frame]
@[simp] theorem State.afterPeriods_session_number (s : State) (d : Nat) : (s.afterPeriods d).session.number = s.session.number := by
  rw [State.afterPeriods_frame]
@[simp] theorem State.afterPeriods_session_keepalive (s : State) (d : Nat) : (s.afterPeriods d).session.keepalive = s.session.keepalive := by
  rw [State.afterPeriods_frame]
@[simp] theorem State.afterPeriods_journal_records (s : State) (d : Nat) : (s.afterPeriods d).journal.records = s.journal.records := by
  rw [State.afterPeriods_frame]
@[simp] theorem State.afterPeriods_journal_seq (s : State) (d : Nat) : (s.afterPeriods d).journal.seq = s.journal.seq := by
  rw [State.afterPeriods_frame]
@[simp] theorem State.afterPeriods_journal_gap (s : State) (d : Nat) : (s.afterPeriods d).journal.gap = s.journal.gap := by
  rw [State.afterPeriods_frame]
@[simp] theorem State.afterPeriods_journal_watermark (s : State) (d : Nat) : (s.afterPeriods d).journal.watermark = s.journal.watermark := by
  rw [State.afterPeriods_frame]
@[simp] theorem State.afterPeriods_journal_notice (s : State) (d : Nat) : (s.afterPeriods d).journal.notice = s.journal.notice := by
  rw [State.afterPeriods_frame]
@[simp] theorem State.afterPeriods_link_fifo (s : State) (d : Nat) : (s.afterPeriods d).link.fifo = s.link.fifo := by
  rw [State.afterPeriods_frame]
@[simp] theorem State.afterPeriods_link_assembler (s : State) (d : Nat) : (s.afterPeriods d).link.assembler = s.link.assembler := by
  rw [State.afterPeriods_frame]
@[simp] theorem State.afterPeriods_link_dropping (s : State) (d : Nat) : (s.afterPeriods d).link.dropping = s.link.dropping := by
  rw [State.afterPeriods_frame]
@[simp] theorem State.afterPeriods_link_tallies (s : State) (d : Nat) : (s.afterPeriods d).link.tallies = s.link.tallies := by
  rw [State.afterPeriods_frame]
@[simp] theorem State.afterPeriods_link_awaiting (s : State) (d : Nat) : (s.afterPeriods d).link.awaiting = s.link.awaiting := by
  rw [State.afterPeriods_frame]
@[simp] theorem State.afterPeriods_link_replies (s : State) (d : Nat) : (s.afterPeriods d).link.replies = s.link.replies := by
  rw [State.afterPeriods_frame]
@[simp] theorem State.afterPeriods_link_cache (s : State) (d : Nat) : (s.afterPeriods d).link.cache = s.link.cache := by
  rw [State.afterPeriods_frame]
@[simp] theorem State.afterPeriods_link_notices (s : State) (d : Nat) : (s.afterPeriods d).link.notices = s.link.notices := by
  rw [State.afterPeriods_frame]

@[simp] theorem State.afterPeriods_isOpen (s : State) (d : Nat) : (s.afterPeriods d).isOpen = s.isOpen := by
  rw [State.afterPeriods_frame]; rfl

end Sys2Proof.Machine
end

