-- ==== Sys2Proof/Laws/Codec.lean ====
section
/-! SUPPORT. Little-endian fields and step records read back as they were written (R186, R189). -/

namespace Sys2Proof

@[simp] theorem length_le16 (x : Word16) : (le16 x).length = 2 := rfl
@[simp] theorem length_le32 (x : Word32) : (le32 x).length = 4 := rfl
@[simp] theorem length_le48 (x : Stamp) : (le48 x).length = 6 := rfl
@[simp] theorem StepRecord.length_bytes (r : StepRecord) : r.bytes.length = 12 := rfl

/-- Two bytes of a number give it back. -/
@[simp] theorem ofLe16_le16 (x : Word16) : ofLe16 (x.extractLsb' 0 8) (x.extractLsb' 8 8) = x := by
  simp only [ofLe16]; ext i hi; simp; grind

/-- Four bytes of a number give it back. -/
@[simp] theorem ofLe32_le32 (x : Word32) :
    ofLe32 (x.extractLsb' 0 8) (x.extractLsb' 8 8) (x.extractLsb' 16 8) (x.extractLsb' 24 8) = x := by
  simp only [ofLe32, ofLe16]; ext i hi; simp; grind

/-- Six bytes of a stamp give it back. -/
@[simp] theorem ofLe48_le48 (x : Stamp) :
    ofLe48 (x.extractLsb' 0 8) (x.extractLsb' 8 8) (x.extractLsb' 16 8) (x.extractLsb' 24 8) (x.extractLsb' 32 8)
      (x.extractLsb' 40 8) = x := by
  simp only [ofLe48, ofLe32, ofLe16]; ext i hi; simp; grind

/-- The bytes of step records read as those records. -/
theorem StepRecord.ofBytes_bytes (rs : List StepRecord) :
    StepRecord.ofBytes (rs.flatMap StepRecord.bytes) = some rs := by
  induction rs with
  | nil => rfl
  | cons r rs ih => simp [StepRecord.bytes, le32, le16, StepRecord.ofBytes, ih]

end Sys2Proof
end

