-- ==== Sys2Proof/Laws/Orders.lean ====
section
/-! SUPPORT. Orders of lists: a free order holds each element once, and where the list of pending pulse ends takes a new one. -/

namespace Sys2Proof.Machine

/-- The order a code gives holds the elements of the list, each as often as it stands there. -/
theorem reorder_perm {α : Type} (n code : Nat) (l : List α) (h : l.length ≤ n) : (reorder n code l).Perm l := by
  induction n generalizing code l with
  | zero => simp [List.length_eq_zero_iff.mp (Nat.le_zero.mp h), reorder]
  | succ n ih =>
    unfold reorder
    cases hx : l[code % l.length]? with
    | none => exact .refl _
    | some x =>
      obtain ⟨hlt, rfl⟩ := List.getElem?_eq_some_iff.mp hx
      have hlen : (l.eraseIdx (code % l.length)).length ≤ n := by
        rw [List.length_eraseIdx_of_lt hlt]
        omega
      exact ((ih _ _ hlen).cons _).trans (List.getElem_cons_eraseIdx_perm hlt)

/-- A free order holds the elements of the list, each as often as it stands there. -/
theorem freeOrder_perm {α : Type} (order : Nat → Nat) (n : Nat) (l : List α) : (freeOrder order n l).Perm l := by
  match l with
  | [] => exact .refl _
  | [_] => exact .refl _
  | _ :: _ :: _ => exact reorder_perm _ _ _ (by simp)

/-- A new pulse end stands behind those whose offset is not past its own and before the first whose offset is, and a list in
order of offset stays so (R35). -/
theorem insertPulse_split (new : PulseEnd) (ends : List PulseEnd) :
    ∃ before after : List PulseEnd, ends = before ++ after ∧ insertPulse new ends = before ++ new :: after ∧
      (∀ e ∈ before, e.offset.toNat ≤ new.offset.toNat) ∧
      (∀ e, after.head? = some e → new.offset.toNat < e.offset.toNat) ∧
      (ends.Pairwise (fun a b => a.offset.toNat ≤ b.offset.toNat) →
        (before ++ new :: after).Pairwise fun a b => a.offset.toNat ≤ b.offset.toNat) := by
  induction ends with
  | nil => exact ⟨[], [], rfl, rfl, by simp, by simp, by simp⟩
  | cons x rest ih =>
    obtain ⟨before, after, hsplit, hins, hbefore, hafter, hsorted⟩ := ih
    by_cases hx : x.offset.toNat ≤ new.offset.toNat
    · refine ⟨x :: before, after, by simp [hsplit], by simp [insertPulse, hx, hins], ?_, hafter, ?_⟩
      · intro e he
        rcases List.mem_cons.mp he with rfl | he
        · exact hx
        · exact hbefore e he
      · intro hp
        rw [List.pairwise_cons] at hp
        rw [List.cons_append, List.pairwise_cons]
        refine ⟨fun e he => ?_, hsorted hp.2⟩
        have : e ∈ rest ∨ e = new := by
          rw [hsplit]
          simp only [List.mem_append, List.mem_cons] at he ⊢
          grind
        rcases this with h | rfl
        · exact hp.1 e h
        · exact hx
    · refine ⟨[], x :: rest, rfl, by simp [insertPulse, hx], by simp, by simp; omega, fun hp => ?_⟩
      rw [List.nil_append, List.pairwise_cons]
      refine ⟨fun e he => ?_, hp⟩
      rw [List.pairwise_cons] at hp
      rcases List.mem_cons.mp he with rfl | he
      · omega
      · have := hp.1 e he
        omega

end Sys2Proof.Machine
end

