-- ==== Sys2Proof/Laws/PerInstr.lean ====
section
/-! SUPPORT. Per constructor of Instr: the frame that carries a well-formed command fits the link, and its length fits its kind
(R162, R168 step 2, R187). -/

namespace Sys2Proof.Laws.Frames

/-- The frame of a well-formed command has at most 240 bytes of payload, and a length that its kind allows (R162, R187). -/
def Statement (i : Instr) : Prop :=
  ∀ f : Frame, i.wellFormed = true → i.frame = some f →
    f.payload.length ≤ 240 ∧ (isRequestKind f.kind = true → lengthFits f.kind f.payload.length = true)

theorem identify (tag : Byte) : Statement (.identify tag) := by
  rintro f _ ⟨⟩; simp [lengthFits, fixedLength]

theorem openSession (tag : Byte) (keepalive : Word16) : Statement (.openSession tag keepalive) := by
  rintro f _ ⟨⟩; simp [lengthFits, fixedLength]

theorem closeSession (tag : Byte) : Statement (.closeSession tag) := by
  rintro f _ ⟨⟩; simp [lengthFits, fixedLength]

theorem ping (tag : Byte) (payload : List Byte) : Statement (.ping tag payload) := by
  rintro f hw ⟨⟩; simp_all [Instr.wellFormed, lengthFits]

theorem resetPart (tag : Byte) : Statement (.resetPart tag) := by
  rintro f _ ⟨⟩; simp [lengthFits, fixedLength]

theorem ackEvents (tag : Byte) (seq : Word16) : Statement (.ackEvents tag seq) := by
  rintro f _ ⟨⟩; simp [lengthFits, fixedLength]

theorem replayEvents (tag : Byte) (seq : Word16) : Statement (.replayEvents tag seq) := by
  rintro f _ ⟨⟩; simp [lengthFits, fixedLength]

theorem readTime (tag : Byte) : Statement (.readTime tag) := by
  rintro f _ ⟨⟩; simp [lengthFits, fixedLength]

theorem setTick (tag divider : Byte) : Statement (.setTick tag divider) := by
  rintro f _ ⟨⟩; simp [lengthFits, fixedLength]

theorem setReference (tag : Byte) (interval : Word32) (window : Word16) : Statement (.setReference tag interval window) := by
  rintro f _ ⟨⟩; simp [lengthFits, fixedLength]

theorem readReference (tag : Byte) : Statement (.readReference tag) := by
  rintro f _ ⟨⟩; simp [lengthFits, fixedLength]

theorem configureLine (tag line role rest filter capture : Byte) : Statement (.configureLine tag line role rest filter capture) := by
  rintro f _ ⟨⟩; simp [lengthFits, fixedLength]

theorem readLines (tag : Byte) : Statement (.readLines tag) := by
  rintro f _ ⟨⟩; simp [lengthFits, fixedLength]

theorem openPage (tag : Byte) (period : Word32) (repeats : Word16) (flags reserved : Byte) : Statement (.openPage tag period repeats flags reserved) := by
  rintro f _ ⟨⟩; simp [lengthFits, fixedLength]

/-- n step records have 12 n bytes (R189). -/
theorem bytesOfRecords (records : List StepRecord) :
    (records.flatMap StepRecord.bytes).length = 12 * records.length := by
  induction records with
  | nil => rfl
  | cons r rs ih => simp [ih]; omega

theorem appendSteps (tag page reserved : Byte) (records : List StepRecord) : Statement (.appendSteps tag page reserved records) := by
  rintro f hw ⟨⟩
  have := bytesOfRecords records
  simp [Instr.wellFormed] at hw
  simp [lengthFits, this]; omega

theorem sealPage (tag page : Byte) : Statement (.sealPage tag page) := by
  rintro f _ ⟨⟩; simp [lengthFits, fixedLength]

theorem discardPage (tag page : Byte) : Statement (.discardPage tag page) := by
  rintro f _ ⟨⟩; simp [lengthFits, fixedLength]

theorem readPage (tag page first : Byte) : Statement (.readPage tag page first) := by
  rintro f _ ⟨⟩; simp [lengthFits, fixedLength]

theorem readPool (tag : Byte) : Statement (.readPool tag) := by
  rintro f _ ⟨⟩; simp [lengthFits, fixedLength]

theorem configureTrack (tag track enable policy options : Byte) (group rest : LineSet) : Statement (.configureTrack tag track enable policy options group rest) := by
  rintro f _ ⟨⟩; simp [lengthFits, fixedLength]

theorem queuePage (tag page track : Byte) : Statement (.queuePage tag page track) := by
  rintro f _ ⟨⟩; simp [lengthFits, fixedLength]

theorem flushQueue (tag track : Byte) : Statement (.flushQueue tag track) := by
  rintro f _ ⟨⟩; simp [lengthFits, fixedLength]

theorem startTrackAt (tag track options trigger : Byte) (time : Stamp) (offset : Word32) : Statement (.startTrackAt tag track options trigger time offset) := by
  rintro f _ ⟨⟩; simp [lengthFits, fixedLength]

theorem startTrackAfter (tag track options trigger : Byte) (time : Stamp) (offset : Word32) : Statement (.startTrackAfter tag track options trigger time offset) := by
  rintro f _ ⟨⟩; simp [lengthFits, fixedLength]

theorem startTrackOnTrigger (tag track options trigger : Byte) (time : Stamp) (offset : Word32) : Statement (.startTrackOnTrigger tag track options trigger time offset) := by
  rintro f _ ⟨⟩; simp [lengthFits, fixedLength]

theorem startTrackAtEpoch (tag track options trigger : Byte) (time : Stamp) (offset : Word32) : Statement (.startTrackAtEpoch tag track options trigger time offset) := by
  rintro f _ ⟨⟩; simp [lengthFits, fixedLength]

theorem stopTrackAbort (tag track : Byte) : Statement (.stopTrackAbort tag track) := by
  rintro f _ ⟨⟩; simp [lengthFits, fixedLength]

theorem stopTrackEnd (tag track : Byte) : Statement (.stopTrackEnd tag track) := by
  rintro f _ ⟨⟩; simp [lengthFits, fixedLength]

theorem holdTrack (tag track : Byte) : Statement (.holdTrack tag track) := by
  rintro f _ ⟨⟩; simp [lengthFits, fixedLength]

theorem releaseTrack (tag track : Byte) : Statement (.releaseTrack tag track) := by
  rintro f _ ⟨⟩; simp [lengthFits, fixedLength]

theorem readTrack (tag track : Byte) : Statement (.readTrack tag track) := by
  rintro f _ ⟨⟩; simp [lengthFits, fixedLength]

theorem armTrigger (tag trigger line sense count flags : Byte) : Statement (.armTrigger tag trigger line sense count flags) := by
  rintro f _ ⟨⟩; simp [lengthFits, fixedLength]

theorem disarmTrigger (tag trigger : Byte) : Statement (.disarmTrigger tag trigger) := by
  rintro f _ ⟨⟩; simp [lengthFits, fixedLength]

theorem readTrigger (tag trigger : Byte) : Statement (.readTrigger tag trigger) := by
  rintro f _ ⟨⟩; simp [lengthFits, fixedLength]

theorem readJournal (tag : Byte) (ack : Word16) (maximum reserved : Byte) (wait : Word16) : Statement (.readJournal tag ack maximum reserved wait) := by
  rintro f _ ⟨⟩; simp [lengthFits, fixedLength]

theorem setJournal (tag : Byte) (watermark : Word16) : Statement (.setJournal tag watermark) := by
  rintro f _ ⟨⟩; simp [lengthFits, fixedLength]

theorem badKindFrame (tag kind : Byte) (payload : List Byte) : Statement (.badKindFrame tag kind payload) := by
  rintro f hw ⟨⟩; simp_all [Instr.wellFormed]

theorem byteReceived (byte : Byte) : Statement (.byteReceived byte) := by
  rintro f _ ⟨⟩

theorem gapTimeout : Statement (.gapTimeout) := by
  rintro f _ ⟨⟩

theorem keepaliveExpiry : Statement (.keepaliveExpiry) := by
  rintro f _ ⟨⟩

theorem transmitNextFrame : Statement (.transmitNextFrame) := by
  rintro f _ ⟨⟩

theorem resetPower : Statement (.resetPower) := by
  rintro f _ ⟨⟩

theorem resetPin : Statement (.resetPin) := by
  rintro f _ ⟨⟩

theorem resetRequest : Statement (.resetRequest) := by
  rintro f _ ⟨⟩

theorem startUpEnd : Statement (.startUpEnd) := by
  rintro f _ ⟨⟩

theorem inputTransition (line : LineId) (level : Bool) : Statement (.inputTransition line level) := by
  rintro f _ ⟨⟩

theorem edgeAcceptance (line : LineId) : Statement (.edgeAcceptance line) := by
  rintro f _ ⟨⟩

theorem referencePulse : Statement (.referencePulse) := by
  rintro f _ ⟨⟩

theorem missingPulseExpiry : Statement (.missingPulseExpiry) := by
  rintro f _ ⟨⟩

theorem firingAgeDiscard (trigger : TriggerId) : Statement (.firingAgeDiscard trigger) := by
  rintro f _ ⟨⟩

theorem gateExpiry (track : TrackId) : Statement (.gateExpiry track) := by
  rintro f _ ⟨⟩

theorem gateResume (track : TrackId) : Statement (.gateResume track) := by
  rintro f _ ⟨⟩

theorem journalWaitExpiry : Statement (.journalWaitExpiry) := by
  rintro f _ ⟨⟩

theorem armedStartEffect (track : TrackId) : Statement (.armedStartEffect track) := by
  rintro f _ ⟨⟩

theorem releaseStartEffect (track : TrackId) : Statement (.releaseStartEffect track) := by
  rintro f _ ⟨⟩

theorem trackActionTick (track : TrackId) : Statement (.trackActionTick track) := by
  rintro f _ ⟨⟩

theorem resetEnd (straps : BitVec 2) : Statement (.resetEnd straps) := by
  rintro f _ ⟨⟩

end Sys2Proof.Laws.Frames
end

