-- ==== Sys2Proof/Laws/Requests.lean ====
section
/-! SUPPORT. What a request row comes to: an executed request is its owner's answer, an owner's answer is a reply or a deferral,
and the ids a statement names are the ids the part reads. -/

namespace Sys2Proof.Machine

/-- A good frame that passes the first five steps of R168 is executed by its owner. -/
theorem State.dispatch_executed {s : State} {f : Frame} (own : State → State × Answer) (hk : isRequestKind f.kind = true)
    (hl : lengthFits f.kind f.payload.length = true) (ha : s.isOpen = true ∨ admittedClosed f.kind = true)
    (hn : f.tag = 0 ∨ (s.cached f.tag = none ∧ s.inFlight f.tag = false)) : s.dispatch f own = s.execute f own := by
  have hadm : (!s.isOpen && !admittedClosed f.kind) = false := by rcases ha with ha | ha <;> simp [ha]
  rcases hn with hn | ⟨hc, hi⟩
  · simp [State.dispatch, hk, hl, hadm, hn]
  · simp [State.dispatch, hk, hl, hadm, hc, hi]

/-- A request row that is executed is step 6 of R168 on the state whose silence timer the good frame has restarted. -/
theorem State.request_executed {s : State} {i : Instr} {kind tag : Byte} {payload : List Byte}
    (own : State → State × Answer) (h : s.Executes kind tag) (hf : i.frame = some ⟨kind, tag, payload⟩)
    (hk : isRequestKind kind = true) (hl : lengthFits kind payload.length = true) :
    s.request i own = s.restartSilence.execute ⟨kind, tag, payload⟩ own := by
  obtain ⟨ht, ha, hn⟩ := h
  have hrun : s.phase = .running := by simp_all [State.takesAtOnce, State.canTake]
  have hopen : s.restartSilence.isOpen = s.isOpen := by
    unfold State.restartSilence State.isOpen; split <;> rfl
  have hcached : s.restartSilence.cached tag = s.cached tag := by simp [State.cached]
  have hflight : s.restartSilence.inFlight tag = s.inFlight tag := by simp [State.inFlight]
  simp only [State.request, hf, State.frameArrives, hrun, ht, ne_eq, not_true, if_false, if_true]
  exact State.dispatch_executed own hk hl (by rwa [hopen]) (by rwa [hcached, hflight])

/-- An owner that answers at once leaves the state answered. -/
theorem State.execute_reply {s s' : State} {f : Frame} {own : State → State × Answer} {status : Status}
    {fields : List Byte} {gates : TriggerSet} (h : own s = (s', .reply status fields gates)) :
    s.execute f own = s'.answered (f.kind + 0x80) f.tag status fields gates := by
  simp [State.execute, h, State.answered]

/-- An owner that defers takes a slot. -/
theorem State.execute_deferred {s s' : State} {f : Frame} {own : State → State × Answer} {owner : Owner}
    (h : own s = (s', .deferred owner)) : s.execute f own = s'.defer owner f.tag := by
  simp [State.execute, h]

/-- The session stays open or closed when the silence timer restarts. -/
@[simp] theorem State.isOpen_restartSilence (s : State) : s.restartSilence.isOpen = s.isOpen := by
  unfold State.restartSilence State.isOpen; split <;> rfl

/-- With no session open the silence timer does not restart. -/
theorem State.restartSilence_closed {s : State} (h : s.isOpen = false) : s.restartSilence = s := by
  simp [State.restartSilence, h]

/-- Every event queued in a closed session is dropped. -/
theorem State.queueEvent_closed {s : State} (h : s.isOpen = false) (e : Event) : s.queueEvent e = s := by
  simp [State.queueEvent, h]

/-- An event queued in an open session goes to the event unit. -/
theorem State.queueEvent_open {s : State} (h : s.isOpen = true) (e : Event) :
    s.queueEvent e = { s with events := s.events.store e } := by
  simp [State.queueEvent, h]

/-- With no request of an owner held, composing its reply does nothing. -/
theorem State.compose_none {s : State} {owner : Owner} (h : ∀ d ∈ s.link.awaiting, d.owner ≠ owner) (status : Status)
    (fields : List Byte) : s.compose owner status fields = s := by
  have : s.link.awaiting.find? (·.owner == owner) = none := by simpa using h
  simp [State.compose, this]

/-- What composing the reply of a deferred request does: it answers the request, if one is held, and touches the link unit
alone (R172). -/
theorem State.compose_answered (s : State) (owner : Owner) (status : Status) (fields : List Byte) :
    Link.Answered s.link (s.compose owner status fields).link owner
        (fun tag => ⟨owner.replyKind, tag, status, 0, fields⟩) ∧
      s.compose owner status fields = { s with link := (s.compose owner status fields).link } := by
  refine ⟨⟨fun h => by rw [State.compose_none h], ?_⟩, by unfold State.compose; split <;> rfl⟩
  intro front back tag h others
  have hf : s.link.awaiting.find? (·.owner == owner) = some ⟨owner, tag⟩ := by
    have : front.find? (·.owner == owner) = none := by
      rw [List.find?_eq_none]; intro d hd; simpa using others d (by simp [hd])
    rw [h, List.find?_append, this]; simp
  have front_kept : front.filter (·.owner != owner) = front := by
    rw [List.filter_eq_self]; intro d hd; simpa using others d (by simp [hd])
  have back_kept : back.filter (·.owner != owner) = back := by
    rw [List.filter_eq_self]; intro d hd; simpa using others d (by simp [hd])
  unfold State.compose
  rw [hf]
  simp [h, List.filter_append, front_kept, back_kept]

/-- What answering a deferred request ABORTED does (R66, R73). -/
theorem State.composeAborted_answered (s : State) (owner : Owner) :
    Link.Answered s.link (s.composeAborted owner).link owner (abortedReply owner) ∧
      s.composeAborted owner = { s with link := (s.composeAborted owner).link } := by
  unfold State.composeAborted
  cases owner <;> exact State.compose_answered s _ .aborted _

/-- A frame is taken at once when the dispatcher may take it and the assembler stands in HUNT on an empty FIFO (R167). -/
theorem State.takesAtOnce_iff (s : State) :
    s.takesAtOnce = true ↔ s.canTake = true ∧ s.link.fifo = [] ∧ s.link.assembler = .hunt := by
  simp [State.takesAtOnce, and_assoc]

/-! ## Ids -/

/-- A byte below n is read as the id it carries. -/
theorem idBelow_lt {n : Nat} {b : Byte} (h : b.toNat < n) : idBelow n b = some ⟨b.toNat, h⟩ := by simp [idBelow, h]

/-- A byte not below n is no id. -/
theorem idBelow_ge {n : Nat} {b : Byte} (h : n ≤ b.toNat) : idBelow n b = none := by simp [idBelow, Nat.not_lt.mpr h]

/-- The byte of an id is read as that id. -/
theorem idBelow_ofNat {n : Nat} (hn : n ≤ 256) (i : Fin n) : idBelow n (BitVec.ofNat 8 i.val) = some i := by
  have hi : i.val % 256 = i.val := Nat.mod_eq_of_lt (Nat.lt_of_lt_of_le i.isLt hn)
  simp [idBelow, hi]

@[simp] theorem idBelow_track (t : TrackId) : idBelow 8 (BitVec.ofNat 8 t.val) = some t := idBelow_ofNat (by decide) t
@[simp] theorem idBelow_page (p : PageId) : idBelow 64 (BitVec.ofNat 8 p.val) = some p := idBelow_ofNat (by decide) p
@[simp] theorem idBelow_line (l : LineId) : idBelow 16 (BitVec.ofNat 8 l.val) = some l := idBelow_ofNat (by decide) l
@[simp] theorem idBelow_trigger (k : TriggerId) : idBelow 4 (BitVec.ofNat 8 k.val) = some k :=
  idBelow_ofNat (by decide) k

end Sys2Proof.Machine
end

