-- ==== Sys2Proof/Laws/Samples.lean ====
section
/-! SUPPORT. What accepting edges does to the lines: an accepted candidate changes its own line alone, and no candidate of filter 0
stands when a sample has ended. A sample of which one acceptance alone is told accepts that candidate. -/

namespace Sys2Proof.Machine

@[simp] theorem State.noticeJournal_lines (s : State) : s.noticeJournal.lines = s.lines := by
  unfold State.noticeJournal
  split
  · simp
  · rfl

@[simp] theorem State.completeRead_lines (s : State) : s.completeRead.lines = s.lines := by
  unfold State.completeRead
  split <;> simp

@[simp] theorem State.recordEdge_lines (s : State) (l : LineId) (rising : Bool) (f : Stamp) :
    (s.recordEdge l rising f).lines = s.lines := by
  unfold State.recordEdge
  dsimp only
  split
  · simp
  · split
    · rfl
    · split <;> rfl

@[simp] theorem State.releaseAll_lines (s : State) (f c : Stamp) (ts : List TrackId) :
    (ts.foldl (fun u t => State.releaseTrack u f c t) s).lines = s.lines := by
  induction ts generalizing s with
  | nil => rfl
  | cons t ts ih => rw [List.foldl_cons, ih]; simp [State.releaseTrack]

@[simp] theorem State.fire_lines (s : State) (k : TriggerId) (g : TriggerConfig) (f c : Stamp) :
    (s.fire k g f c).lines = s.lines := by
  unfold State.fire
  dsimp only
  split <;> simp

@[simp] theorem State.edgeAtTrigger_lines (s : State) (rising : Bool) (f c : Stamp) (k : TriggerId) :
    (s.edgeAtTrigger rising f c k).lines = s.lines := by
  unfold State.edgeAtTrigger
  split
  · rfl
  · split
    · rfl
    · split <;> simp
    · split <;> simp
    · split <;> simp

@[simp] theorem State.deliver_lines (s : State) (l : LineId) (rising : Bool) (f c : Stamp) (r : Receiver) :
    (s.deliver l rising f c r).lines = s.lines := by
  cases r <;> simp [State.deliver]

/-- Delivering an edge to its receivers leaves every line as it is. -/
@[simp] theorem State.deliverAll_lines (s : State) (l : LineId) (rising : Bool) (f c : Stamp) (rs : List Receiver) :
    (rs.foldl (fun u r => State.deliver u l rising f c r) s).lines = s.lines := by
  induction rs generalizing s with
  | nil => rfl
  | cons r rs ih => rw [List.foldl_cons, ih]; simp

@[simp] theorem State.noticeJournal_sample (s : State) : s.noticeJournal.sample = s.sample := by
  unfold State.noticeJournal
  split
  · simp
  · rfl

@[simp] theorem State.completeRead_sample (s : State) : s.completeRead.sample = s.sample := by
  unfold State.completeRead
  split <;> simp

@[simp] theorem State.recordEdge_sample (s : State) (l : LineId) (rising : Bool) (f : Stamp) :
    (s.recordEdge l rising f).sample = s.sample := by
  unfold State.recordEdge
  dsimp only
  split
  · simp
  · split
    · rfl
    · split <;> rfl

@[simp] theorem State.releaseAll_sample (s : State) (f c : Stamp) (ts : List TrackId) :
    (ts.foldl (fun u t => State.releaseTrack u f c t) s).sample = s.sample := by
  induction ts generalizing s with
  | nil => rfl
  | cons t ts ih => rw [List.foldl_cons, ih]; simp [State.releaseTrack]

@[simp] theorem State.fire_sample (s : State) (k : TriggerId) (g : TriggerConfig) (f c : Stamp) :
    (s.fire k g f c).sample = s.sample := by
  unfold State.fire
  dsimp only
  split <;> simp

@[simp] theorem State.edgeAtTrigger_sample (s : State) (rising : Bool) (f c : Stamp) (k : TriggerId) :
    (s.edgeAtTrigger rising f c k).sample = s.sample := by
  unfold State.edgeAtTrigger
  split
  · rfl
  · split
    · rfl
    · split <;> simp
    · split <;> simp
    · split <;> simp

@[simp] theorem State.deliver_sample (s : State) (l : LineId) (rising : Bool) (f c : Stamp) (r : Receiver) :
    (s.deliver l rising f c r).sample = s.sample := by
  cases r <;> simp [State.deliver]

/-- Delivering an edge to its receivers leaves the sample that is being taken as it is. -/
@[simp] theorem State.deliverAll_sample (s : State) (l : LineId) (rising : Bool) (f c : Stamp) (rs : List Receiver) :
    (rs.foldl (fun u r => State.deliver u l rising f c r) s).sample = s.sample := by
  induction rs generalizing s with
  | nil => rfl
  | cons r rs ih => rw [List.foldl_cons, ih]; simp

@[simp] theorem State.acceptEdge_sample (s : State) (l : LineId) : (s.acceptEdge l).sample = s.sample := by
  unfold State.acceptEdge
  split
  · simp
  · rfl

@[simp] theorem State.acceptAll_sample (ls : List LineId) (s : State) : (ls.foldl State.acceptEdge s).sample = s.sample := by
  induction ls generalizing s with
  | nil => rfl
  | cons l ls ih => rw [List.foldl_cons, ih]; simp

/-- When a sample has ended nothing is told of the next. -/
@[simp] theorem State.endSample_sample (s : State) : s.endSample.sample = Sample.fresh := by
  unfold State.endSample
  simp

/-- An accepted candidate gives its line the new sensed level and no candidate, and leaves every other line (R123). -/
theorem State.acceptEdge_line (s : State) (l m : LineId) :
    (s.acceptEdge l).lines[m] =
      if m = l then
        match s.lines[l].role with
        | .input filter capture sensed (some _) => { s.lines[l] with role := .input filter capture (!sensed) none }
        | .unused | .output _ | .input _ _ _ none => s.lines[l]
      else s.lines[m] := by
  unfold State.acceptEdge
  split
  · rename_i filter capture sensed f h
    simp only [h, State.deliverAll_lines, State.modifyLine]
    by_cases hm : m = l
    · simp [hm]
    · have : l.val ≠ m.val := fun h => hm (Fin.ext h.symm)
      simp [hm, this]
  · rename_i h
    by_cases hm : m = l
    · subst hm
      rw [if_pos rfl]
      split
      · rename_i hr
        exact absurd hr (h _ _ _ _)
      all_goals rfl
    · rw [if_neg hm]

/-- A line without a candidate of filter 0 has none after an acceptance. -/
theorem State.unfiltered_acceptEdge (s : State) (l m : LineId) (h : m = l ∨ s.unfiltered m = false) :
    (s.acceptEdge l).unfiltered m = false := by
  unfold State.unfiltered at h ⊢
  rw [State.acceptEdge_line]
  by_cases hm : m = l
  · subst hm
    rw [if_pos rfl]
    generalize s.lines[m] = ln
    obtain ⟨rest, role⟩ := ln
    cases role with
    | unused => rfl
    | output driven => rfl
    | input filter capture sensed candidate => cases candidate <;> rfl
  · rw [if_neg hm]
    exact h.resolve_left hm

/-- After the candidates of a list of lines are accepted, no line of the list holds a candidate of filter 0, and no other line that
held none. -/
theorem State.unfiltered_acceptAll (ls : List LineId) (s : State) (m : LineId) (h : m ∈ ls ∨ s.unfiltered m = false) :
    (ls.foldl State.acceptEdge s).unfiltered m = false := by
  induction ls generalizing s with
  | nil => exact h.resolve_left (List.not_mem_nil)
  | cons l ls ih =>
    rw [List.foldl_cons]
    apply ih
    rcases h with h | h
    · rcases List.mem_cons.mp h with rfl | h
      · exact .inr (State.unfiltered_acceptEdge s m m (.inl rfl))
      · exact .inl h
    · exact .inr (State.unfiltered_acceptEdge s l m (.inr h))

/-- A candidate of filter 0 is due. -/
theorem State.candidateDue_of_unfiltered {s : State} {m : LineId} (h : s.unfiltered m = true) : s.candidateDue m = true := by
  unfold State.unfiltered at h
  unfold State.candidateDue
  generalize s.lines[m].role = role at h ⊢
  cases role with
  | unused => cases h
  | output driven => cases h
  | input filter capture sensed candidate =>
    cases candidate with
    | none => cases h
    | some f => exact Bool.or_eq_true_iff.mpr (.inl h)

/-- No candidate of filter 0 stands when a sample has ended (R123). -/
theorem State.unfiltered_endSample (s : State) (m : LineId) : s.endSample.unfiltered m = false := by
  apply State.unfiltered_acceptAll
  by_cases hu : s.unfiltered m = true
  · refine .inl (List.mem_filter.mpr ⟨List.mem_finRange m, ?_⟩)
    have : allLines.any s.unfiltered = true := List.any_eq_true.mpr ⟨m, List.mem_finRange m, hu⟩
    simp [State.sampleAccepts, this, State.candidateDue_of_unfiltered hu]
  · exact .inr (by simpa [State.unfiltered] using hu)

/-- A sample of which nothing has been told, on lines that hold no candidate of filter 0, accepts none. -/
theorem State.endSample_of_none {s : State} (hf : s.sample = Sample.fresh) (hu : ∀ m, s.unfiltered m = false) :
    s.endSample = s := by
  have ha : s.sampleAccepts = fun _ => false := by
    funext m
    simp [State.sampleAccepts, hf, Sample.fresh, hu]
  unfold State.endSample
  rw [ha, ← hf]
  simp

/-- A sample of which the acceptance of one line alone is told, where no candidate of filter 0 stands, accepts that line's
candidate alone. -/
theorem State.endSample_joinSample {s : State} (l : LineId) (hf : s.sample = Sample.fresh) (hu : ∀ m, s.unfiltered m = false) :
    (s.joinSample l).endSample = s.acceptEdge l := by
  have hj : ∀ m, (s.joinSample l).unfiltered m = false := hu
  have hb : ∀ l m : LineId, (0 ||| BitVec.twoPow 16 l).getLsbD m = decide (m = l) := by decide +kernel
  have ha : (s.joinSample l).sampleAccepts = fun m => decide (m = l) := by
    funext m
    have hn : allLines.any (s.joinSample l).unfiltered = false := by simp [hj]
    have hm : (s.joinSample l).sample.accepted.getLsbD m = decide (m = l) := by
      show (s.sample.accepted ||| BitVec.twoPow 16 l).getLsbD m = _
      rw [hf]
      exact hb l m
    rw [State.sampleAccepts, hn, hm, Bool.false_and, Bool.or_false]
  have hl : ∀ l : LineId, allLines.filter (fun m => decide (m = l)) = [l] := by decide +kernel
  unfold State.endSample
  rw [ha, hl l]
  show State.acceptEdge { s with sample := Sample.fresh } l = s.acceptEdge l
  rw [← hf]

end Sys2Proof.Machine
end

