-- ==== Sys2Proof/Tests/Slice0.lean ====
section
/-! SUPPORT. The model's own tests: ill-formed commands that the check refuses, frames and step records written out byte by byte
from the spec's layouts, one step of each family on a small state, and, for every statement with hypotheses, a state and operands
that meet them, at the boundary values of each clause. -/

namespace Sys2Proof.Tests

-- One theorem after another: a thread for each of them would not fit the memory limit.
set_option Elab.async false

open Sys2Proof.Machine

/-! ## Small states -/

/-- The part at work, no session open. -/
def ready : State := { State.reset with phase := .running }

/-- The part at work in session 1 with a keepalive of 100 ms. -/
def live : State := { ready with session := ⟨.opened, 1, 100, some 10000000⟩ }

/-- A state with one track record replaced. -/
def withTrack (s : State) (t : TrackId) (x : Track) : State := { s with tracks := s.tracks.set t x }

/-- A state with one page record replaced. -/
def withPage (s : State) (p : PageId) (x : Page) : State := { s with pages := s.pages.set p x }

/-- A state with one trigger record replaced. -/
def withTrigger (s : State) (k : TriggerId) (x : Trigger) : State := { s with triggers := s.triggers.set k x }

/-- A state with one line record replaced. -/
def withLine (s : State) (l : LineId) (x : Line) : State := { s with lines := s.lines.set l x }

/-- A page of one pulse on L2 at offset 100 and one mark at offset 500. -/
def pageOf (st : PageState) (owner : Option TrackId) : Page :=
  ⟨st, 1000, 2, true, false, [.pulse 100 4 true 400, .mark 500 7], 4, 0, owner⟩

/-- A track whose group is L2. -/
def trackOf (st : TrackState) (queue : List PageId) : Track :=
  ⟨st, 4, .rest, true, true, queue, false, false, none, false⟩

/-- The live part with L2 an output of T3. -/
def grouped (st : TrackState) (queue : List PageId) : State :=
  withLine (withTrack live 3 (trackOf st queue)) 2 ⟨false, .output false⟩

/-- T3 IDLE with page 6 in its queue. -/
def idleTrack : State := withPage (grouped .idle [6]) 6 (pageOf .queued (some 3))

/-- The playback context of page 5 at a next step, with pulse ends. -/
def contextAt (nextStep : Nat) (ends : List PulseEnd) : Playback := ⟨5, 0, 0, 0, nextStep, 0, ends, 0⟩

/-- T3 PLAYING page 5 at a next step, with pulse ends. -/
def playingAt (nextStep : Nat) (ends : List PulseEnd) : State :=
  withPage (grouped (.playing (contextAt nextStep ends)) []) 5 (pageOf .active (some 3))

/-- A gate on K1 that a track reached at tick 0. -/
def gateOn (action : GateAction) (expiry resume : Option Stamp) : GateWait := ⟨1, 200, 1, action, true, 0, expiry, resume⟩

/-- T3 STALLED at a gate on K1. -/
def stalledAt (g : GateWait) : State :=
  withPage (grouped (.stalled (contextAt 2 []) g) []) 5 (pageOf .active (some 3))

/-- A rising-edge trigger on L8, unlimited, reporting. -/
def riseOn8 : TriggerConfig := ⟨8, .rise, false, 0, true⟩

/-- The live part with K1 in a latch state, watching L8. -/
def withLatch (s : State) (latch : Latch) : State :=
  withLine (withTrigger s 1 ⟨latch, some riseOn8⟩) 8 ⟨false, .input 3 .both false none⟩

/-- T3 in a state, page 6 in its queue. -/
def inState (st : TrackState) : State := withPage (grouped st [6]) 6 (pageOf .queued (some 3))

/-- A deferred request of T3 not yet composed. -/
def withAwaiting (s : State) (ds : List Deferred) : State := { s with link := { s.link with awaiting := ds } }

/-- The live part with entries of the event queue, seq 1 onward. -/
def withEvents (s : State) (es : List Entry) (next : Word16) : State := { s with events := ⟨es, next⟩ }

/-- The live part holding n Track Held entries and then others. -/
def withHeld (n : Nat) (es : List Entry) : State :=
  withEvents live (List.replicate n ⟨1, .trackHeld 0 0, true⟩ ++ es) (BitVec.ofNat 16 (n + es.length + 1))

/-- The live part with tallies, holding a sent Link Fault entry. -/
def withFault (x : Tallies) : State :=
  withEvents { live with link := { live.link with tallies := x } }
    [⟨1, .linkFault ⟨0, 0, 1, 0⟩, true⟩, ⟨2, .trackHeld 0 0, false⟩] 3

/-- The live part with a journal of n captured edges. -/
def withRecords (s : State) (n : Nat) : State :=
  { s with journal := { s.journal with records := List.replicate n ⟨0, 1, .rise, 8, 0⟩ } }

/-- A configuration that raises the rest level of L2. -/
def pendingHigh : PendingConfig := ⟨.fault, 4, false, false⟩

/-- T3 with that configuration pending. -/
def withPending (s : State) : State := withTrack s 3 { s.tracks[(3 : TrackId)] with pendingConfig := some pendingHigh }

/-- T3 with that configuration applied. -/
def applied (s : State) : State :=
  withLine (withTrack s 3 { s.tracks[(3 : TrackId)] with
    policy := .fault, reportStarted := false, reportRetired := false, pendingConfig := none }) 2
    { s.lines[(2 : LineId)] with rest := true }

/-- Whether an outcome is a given next state. -/
def nextIs (o : Host.Outcome State Fault Refusal) (t : State) : Bool :=
  match o with
  | .next u => decide (u = t)
  | .fault _ => false
  | .refused _ => false

/-- A timed command is due after d periods, from its two halves. -/
theorem due_of {s : State} {c : Instr} {d : Nat} (h : s.due c = some d) (hb : s.nothingBefore d = true) : s.dueAfter c d :=
  ⟨h, hb⟩

/-- T3 with its pending configuration applied, from the three halves of R55. -/
theorem applied_of {s : State} (h : s.tracks[(3 : TrackId)].pendingConfig = some pendingHigh)
    (hf : applied s = { s with
      tracks := s.tracks.set (3 : TrackId) { s.tracks[(3 : TrackId)] with
        policy := .fault, reportStarted := false, reportRetired := false, pendingConfig := none }
      lines := (applied s).lines })
    (hr : ∀ l : LineId, (applied s).lines[l] =
      if s.tracks[(3 : TrackId)].group.getLsbD l then { s.lines[l] with rest := (4 : LineSet).getLsbD l } else s.lines[l]) :
    s.Applied (applied s) 3 pendingHigh :=
  ⟨h, hf, hr⟩

/-! ## Ill-formed commands -/

theorem test_longPing_illFormed : Instr.wellFormed (.ping 1 (List.replicate 241 0)) = false := by decide +kernel
theorem test_emptyAppend_illFormed : Instr.wellFormed (.appendSteps 1 0 0 []) = false := by decide +kernel
theorem test_longAppend_illFormed : Instr.wellFormed (.appendSteps 1 0 0 (List.replicate 20 ⟨2, 0, 0, 1, 0⟩)) = false := by
  decide +kernel
theorem test_requestKindAsBadKind_illFormed : Instr.wellFormed (.badKindFrame 1 0x10 []) = false := by decide +kernel
theorem test_longBadKind_illFormed : Instr.wellFormed (.badKindFrame 1 0x0A (List.replicate 241 0)) = false := by decide +kernel

/-! ## Frames and records, written out -/

/-- R162: the CRC of the nine characters 1 to 9 is 29B1h. -/
theorem test_crcCheckValue : crc16 [0x31, 0x32, 0x33, 0x34, 0x35, 0x36, 0x37, 0x38, 0x39] = 0x29B1 := by decide +kernel

/-- R162: Identify with tag 7 on the link. -/
theorem test_identifyFrame :
    (Instr.identify 7).frame.map Frame.bytes = some [0xA5, 0x02, 0x01, 0x07, 0x2A, 0xE1] := by decide +kernel

/-- R189: PULSE at offset 100 on L2, level 1, width 400. -/
theorem test_pulseRecord :
    StepRecord.bytes ⟨3, 1, 100, 4, 400⟩ = [0x03, 0x01, 0x64, 0, 0, 0, 0x04, 0, 0x90, 0x01, 0, 0] := by decide +kernel

/-- R187: Start Track in mode ON_TRIGGER, track 2, REPLY_ON_START, trigger 3, offset 500. -/
theorem test_startOnTriggerFrame :
    Frame.command ⟨0x33, 9, [2, 2, 1, 3, 0, 0, 0, 0, 0, 0, 0xF4, 0x01, 0, 0]⟩ =
      some (.startTrackOnTrigger 9 2 1 3 0 500) := by decide +kernel

/-- R187: Read Journal acknowledging 3, maximum 14, wait 5000. -/
theorem test_readJournalFrame :
    Frame.command ⟨0x48, 9, [3, 0, 14, 0, 0x88, 0x13]⟩ = some (.readJournal 9 3 14 0 5000) := by decide +kernel

/-- R187: Configure Line, line 8, INPUT, rest 0, filter 4, both edges. -/
theorem test_configureLineFrame :
    Frame.command ⟨0x18, 9, [8, 2, 0, 4, 3]⟩ = some (.configureLine 9 8 2 0 4 3) := by decide +kernel

/-- R187: Open Page, period 1000, repeat count 2, RETAIN. -/
theorem test_openPageFrame :
    Frame.command ⟨0x20, 9, [0xE8, 0x03, 0, 0, 2, 0, 1, 0]⟩ = some (.openPage 9 1000 2 1 0) := by decide +kernel

/-- R185, R191: Hello after a POWER reset at 115200, at tick 200000. -/
theorem test_helloFrame :
    (Notice.frame (.hello .power 0 200000)).bytes =
      [0xA5, 0x0D, 0xF0, 0x00, 0x16, 0x08, 0x01, 0x00, 0x00, 0x40, 0x0D, 0x03, 0x00, 0x00, 0x00, 0x7E, 0xC5] := by decide +kernel

/-! ## One step of each family -/

/-- From reset, the start-up interval ends with Hello. -/
theorem test_startUpEnd :
    nextIs (exec .startUpEnd State.reset) { State.reset with
      phase := .running, timeline := 200000, prescale := 0
      link := { State.reset.link with notices := [.hello .power 0 200000], sinceByte := 200000 } } = true := by
  decide +kernel

/-- Two unfiltered inputs, L0 and L5. -/
def twoInputs (waiting : List Instr) : State :=
  { withLine (withLine live 0 ⟨false, .input 0 .both false none⟩) 5 ⟨false, .input 0 .both false none⟩ with pending := waiting }

/-- The journal's records after two steps. -/
def recordsAfterTwo (s : State) : List (Word32 × LineId × RecordKind) :=
  match step s with
  | .next t =>
    match step t with
    | .next u => u.journal.records.map fun r => (r.seq, r.line, r.kind)
    | _ => []
  | _ => []

/-- R123, R135: the edges of one sample are recorded in line number order, though L5 comes first in the queue. -/
theorem test_edgesInLineOrder :
    recordsAfterTwo (twoInputs [.inputTransition 5 true, .inputTransition 0 true]) = [(0, 0, .rise), (1, 5, .rise)] := by
  decide +kernel

/-- An unfiltered input L0, and L9 with a candidate of filter 3 that is due in 3 ticks. -/
def dueAtNine (waiting : List Instr) : State :=
  { withLine (withLine live 0 ⟨false, .input 0 .both false none⟩) 9 ⟨false, .input 3 .both false (some 0)⟩ with pending := waiting }

/-- R123, R135: an acceptance and the transition of a lower line behind it are one sample, recorded in line number order; a
level that the acceptance excludes is of a later sample. -/
theorem test_acceptanceInItsSample :
    recordsAfterTwo (dueAtNine [.edgeAcceptance 9, .inputTransition 0 true]) = [(0, 0, .rise), (1, 9, .rise)] ∧
    recordsAfterTwo (dueAtNine [.edgeAcceptance 9, .inputTransition 9 false]) = [(0, 9, .rise)] ∧
    recordsAfterTwo (dueAtNine [.edgeAcceptance 9, .readLines 9]) = [(0, 9, .rise)] := by
  decide +kernel

/-- R123: a request behind a sample finds the edge of filter 0 accepted, and one line sampled twice has two edges. -/
theorem test_sampleAcceptsUnfiltered :
    recordsAfterTwo (twoInputs [.inputTransition 5 true, .configureLine 9 5 0 0 0 0]) = [(0, 5, .rise)] ∧
    recordsAfterTwo (twoInputs [.inputTransition 5 true, .inputTransition 5 false]) = [(0, 5, .rise), (1, 5, .fall)] := by
  decide +kernel

/-- R123, R127: a new filter of 0 on a line whose pin differs accepts the edge within the request. -/
theorem test_configureLineUnfiltered :
    let s : State := { withLine live 8 ⟨false, .input 3 .none false none⟩ with pinLevels := 0x100 }
    nextIs (exec (.configureLine 9 8 2 0 0 3) s)
      (({ (withLine s 8 ⟨false, .input 0 .both true none⟩).recordEdge 8 true 0 with choices := 1 }).answered 0x98 9 .ok
        [8, 2, 1]) = true := by decide +kernel

/-- R167: behind a partial frame a request's bytes stand in the FIFO, and are taken as bytes of that frame. -/
theorem test_frameBehindPartialFrame :
    nextIs (exec (.readTime 9) (live.assemble [0xA5, 0x20] .body))
      (live.assemble ([0xA5, 0x20] ++ (Frame.mk 0x10 9 []).bytes) .body) = true := by decide +kernel

/-- A frame that comes before the part is at work is discarded. -/
theorem test_frameBeforeStartUp : nextIs (exec (.identify 7) State.reset) State.reset = true := by decide +kernel

/-- The first session has number 1; its reply is 28 bytes of payload with the status. -/
theorem test_openSession :
    nextIs (exec (.openSession 7 100) ready) (live.answered 0x82 7 .ok
      [1, 0, 0, 100, 0, 0, 0, 0, 0, 0, 0, 16, 8, 64, 0, 4, 128, 8, 4, 0, 1, 32, 4, 8, 240]) = true := by decide +kernel

/-- A tag seen again is answered from the cache and executes nothing. -/
theorem test_repeatedTag :
    nextIs (exec (.openPage 5 1000 2 1 0) (live.cacheReply ⟨0xA0, 5, .ok, 0, [9]⟩))
      ((live.cacheReply ⟨0xA0, 5, .ok, 0, [9]⟩).pushReply ⟨0xA0, 5, .ok, 0, [9]⟩) = true := by decide +kernel

/-- A request that needs a session is refused NO_SESSION. -/
theorem test_noSession :
    nextIs (exec (.readTime 5) ready) (ready.pushReply ⟨0x90, 5, .noSession, 0, []⟩) = true := by decide +kernel

/-- Open Page takes page 0. -/
theorem test_openPage :
    nextIs (exec (.openPage 5 1000 2 1 0) live)
      ((withPage live 0 ⟨.opened, 1000, 2, true, false, [], 0, 0, none⟩).answered 0xA0 5 .ok [0, 63, 0, 4]) = true := by
  decide +kernel

/-- A step below the offset before it is invalid, and nothing of its request is appended. -/
theorem test_appendDescending :
    nextIs (exec (.appendSteps 5 0 0 [⟨2, 0, 8, 1, 0⟩, ⟨2, 0, 7, 1, 0⟩]) (withPage live 0 ⟨.opened, 1000, 2, true, false, [], 0, 0, none⟩))
      ((withPage live 0 ⟨.opened, 1000, 2, true, false, [], 0, 0, none⟩).answered 0xA1 5 .badValue [0, 0, 0, 4, 1]) = true := by
  decide +kernel

/-- Seal Page derives the footprint. -/
theorem test_sealPage :
    nextIs (exec (.sealPage 5 1) (withPage live 1 { pageOf .opened none with footprint := 0 }))
      ((withPage live 1 (pageOf .sealed none)).answered 0xA2 5 .ok [1, 2, 4, 0, 0]) = true := by decide +kernel

/-- A start at the lead is armed. -/
theorem test_startAtLead :
    nextIs (exec (.startTrackAt 0 3 0 0 64 0) idleTrack)
      ((withTrack idleTrack 3 (trackOf (.armed ⟨.timed 64 false, false⟩) [6])).answered 0xB3 0 .ok
        [3, 2, 0, 0, 0, 64, 0, 0, 0, 0, 0, 0, 0, 0, 0, 0]) = true := by decide +kernel

/-- R126: capture codes 0 to 3 alone name capture edges. -/
theorem test_captureCodes : (CaptureEdges.ofByte 3 = some .both) ∧ CaptureEdges.ofByte 4 = Option.none := by decide +kernel

/-- A capture code out of range is refused, on an INPUT line too. -/
theorem test_configureLineBadCapture :
    nextIs (exec (.configureLine 9 8 2 1 0 4) (withLine live 8 ⟨false, .input 3 .both false none⟩))
      ((withLine live 8 ⟨false, .input 3 .both false none⟩).answered 0x98 9 .badValue [8, 2, 0]) = true := by decide +kernel

/-- One tick less is too late. -/
theorem test_startTooLate :
    nextIs (exec (.startTrackAt 0 3 0 0 63 0) idleTrack)
      (idleTrack.answered 0xB3 0 .tooLate [3, 1, 0, 0, 0, 0, 0, 0, 0, 0, 0, 0, 0, 0, 0, 0]) = true := by decide +kernel

/-- A PULSE step sets its line and holds its end. -/
theorem test_pulseStep :
    nextIs (exec (.trackActionTick 3) (playingAt 0 []))
      (withLine { playingAt 1 [⟨500, 4, false⟩] with
        timeline := 100, link := { live.link with sinceByte := 100 }
        session := { live.session with silence := some 9999900 } } 2 ⟨false, .output true⟩) = true := by
  decide +kernel

/-- A track that waits on an ARMED trigger starts with LATE set when the firing's stamp plus offset is too near. -/
theorem test_lateRelease :
    ((withLatch (grouped (.armed ⟨.onTrigger 1 3, false⟩) [6]) .armed).fire 1 riseOn8 10 14).tracks[(3 : TrackId)].state =
      .armed ⟨.timed 18 true, false⟩ := by decide +kernel

/-- Stop Track ABORT in PLAYING retires the page and takes the track to IDLE. -/
theorem test_stopAbort :
    nextIs (exec (.stopTrackAbort 0 3) (playingAt 1 []))
      ((withEvents (withPage (grouped .idle []) 5 (pageOf .sealed none))
        [⟨1, .pageRetired 3 5 0 .aborted 0, false⟩, ⟨2, .trackStopped 3 0 .abort, false⟩] 3).answered 0xB4 0 .ok
          [3, 1, 0, 0, 0, 0, 0, 0]) = true := by decide +kernel

/-- R74, R188: Stop Track END on an IDLE track gives the state alone; R75: so does Hold Track. -/
theorem test_stateAlone :
    nextIs (exec (.stopTrackEnd 0 3) idleTrack) (idleTrack.answered 0xB4 0 .ok [0, 1, 0, 0, 0, 0, 0, 0]) = true ∧
    nextIs (exec (.holdTrack 0 3) (inState (.holding none))) ((inState (.holding none)).answered 0xB5 0 .ok [0, 5]) = true := by
  decide +kernel

/-- R73, R188: a run end with a stop request answers the deferred Stop Track END with the end stamp alone. -/
theorem test_stopEndStamp :
    let s := withAwaiting (withTrack (playingAt 2 []) 3 { trackOf (.playing (contextAt 2 [])) [] with stopRequest := true })
      [⟨.stopEnd 3, 7⟩]
    ({ s with timeline := 1000 }.runEnd 3 (contextAt 2 [])).link.replies =
      [.deferred ⟨0xB4, 7, .ok, 0, [0, 0, 0xE8, 0x03, 0, 0, 0, 0]⟩ true] := by decide +kernel

/-- R82, R130: at session end a pending configuration is applied, the group's line goes to rest, other lines stay. -/
theorem test_sessionEndLines :
    let s := withLine (withLine (withPending (playingAt 1 [])) 2 ⟨false, .output false⟩) 8 ⟨true, .input 3 .both false (some 9)⟩
    s.endSession.lines[(2 : LineId)] = ⟨true, .output true⟩ ∧ s.endSession.lines[(8 : LineId)] = s.lines[(8 : LineId)] ∧
      s.endSession.pinLevels = s.pinLevels ∧ s.endSession.session.keepalive = s.session.keepalive := by decide +kernel

/-! ## Witnesses: the hypotheses of each statement are met together -/

theorem witness_StepRunsTheFrontCommand :
    ({ live with pending := [.readTime 5] } : State).pending = .readTime 5 :: [] := by
  decide +kernel

theorem witness_IdleStepLetsOnePeriodPass :
    (ready.pending = [] ∧ ready.dueNow = [] ∧ ready.phase ≠ .reset ∧ ready.prescale < ready.divider ∧
      ready.prescale + 1 = ready.divider) ∧
    (let slow : State := { ready with divider := 2 };
      slow.pending = [] ∧ slow.dueNow = [] ∧ slow.phase ≠ .reset ∧ slow.prescale + 1 < slow.divider) ∧
    ((live.beginReset .pin).pending = [] ∧ (live.beginReset .pin).dueNow = [] ∧ (live.beginReset .pin).phase = .reset) ∧
    let due := live.pushReply ⟨0x90, 9, .ok, 0, []⟩
    due.pending = [] ∧ due.dueNow = [.transmitNextFrame] := by
  decide +kernel

theorem witness_CommandsKeepTheQueue :
    ∃ t, exec (.readTime 5) live = .next t := by
  exact ⟨_, rfl⟩

theorem witness_ResetsReturnEveryBlock :
    ((State.reset.beginReset .power).phase = .reset ∧ (State.reset.beginReset .power).cause = .power) ∧
    ¬(live.phase = .reset ∧ live.cause = .power) ∧
    ({ live with resetPart := .replyTaken } : State).dueAfter .resetRequest 0 ∧
    ({ live with resetPart := .replyTaken, link := { live.link with txd := some ⟨[], 7⟩ } } : State).dueAfter
      .resetRequest 7 ∧
    State.reset.dueAfter .startUpEnd 200000 := by
  repeat' (first | decide +kernel | apply due_of | apply State.Executes.mk | apply And.intro)

theorem witness_OpenSessionOpensTheNext :
    (ready.isOpen = false ∧ ready.Executes 0x02 0 ∧ ready.Executes 0x02 255) ∧ (live.isOpen = true ∧ live.Executes 0x02 9) ∧
    (10 ≤ (10 : Word16).toNat ∧ (10000 : Word16).toNat ≤ 10000) ∧
    ¬((9 : Word16) = 0 ∨ (10 ≤ (9 : Word16).toNat ∧ (9 : Word16).toNat ≤ 10000)) ∧
    ¬((10001 : Word16) = 0 ∨ (10 ≤ (10001 : Word16).toNat ∧ (10001 : Word16).toNat ≤ 10000)) ∧
    ((0 : Word16) = 0 ∨ (10 ≤ (0 : Word16).toNat ∧ (0 : Word16).toNat ≤ 10000)) := by
  repeat' (first | decide +kernel | apply due_of | apply State.Executes.mk | apply And.intro)

theorem witness_SessionsEndByCloseOrSilence :
    live.isOpen = true ∧ live.Executes 0x03 9 ∧ live.dueAfter .keepaliveExpiry 10000000 ∧
    let held := withAwaiting live [⟨.start 3, 1⟩, ⟨.stopEnd 3, 2⟩, ⟨.readJournal, 3⟩]
    (∀ d ∈ held.link.awaiting, d.owner ≠ .start 4) ∧ held.link.awaiting = [⟨.start 3, 1⟩] ++ ⟨.stopEnd 3, 2⟩ :: [⟨.readJournal, 3⟩] ∧
      (∀ d ∈ [(⟨.start 3, 1⟩ : Deferred)] ++ [⟨.readJournal, 3⟩], d.owner ≠ .stopEnd 3) ∧
      (held.link.awaiting.map Deferred.owner).Nodup := by
  repeat' (first | decide +kernel | apply due_of | apply State.Executes.mk | apply And.intro)

theorem witness_SessionEndQuietsThePart :
    (playingAt 1 []).tracks[(0 : TrackId)].state = .disabled ∧ (playingAt 1 []).tracks[(3 : TrackId)].state ≠ .disabled ∧
    (playingAt 1 []).tracks[(3 : TrackId)].pendingConfig = none ∧
    (playingAt 1 []).tracks[(3 : TrackId)].group.getLsbD 2 = true ∧
    let s := withPending (playingAt 1 [])
    s.tracks[(3 : TrackId)].pendingConfig = some pendingHigh ∧ s.tracks[(3 : TrackId)].state ≠ .disabled ∧
      (∀ v : TrackId, v ≠ 3 → s.tracks[v].group.getLsbD 2 = false) ∧ s.lines[(2 : LineId)].role = .output false ∧
      (∀ v : TrackId, s.tracks[v].group.getLsbD 15 = false) ∧
      ∀ driven, (withLine s 2 ⟨false, .unused⟩).lines[(2 : LineId)].role ≠ .output driven := by
  decide +kernel

theorem witness_IdentifyAndPingChangeNothing :
    ready.Executes 0x01 0 ∧ live.Executes 0x01 255 ∧ ready.Executes 0x04 9 ∧ ([] : List Byte).length ≤ 240 ∧
    (List.replicate 240 (7 : Byte)).length ≤ 240 := by
  repeat' (first | decide +kernel | apply due_of | apply State.Executes.mk | apply And.intro)

theorem witness_ResetPartWaitsForItsReply :
    ready.Executes 0x05 9 ∧ ({ live with resetPart := .executed } : State).resetPart ≠ .none ∧
    let waiting : State :=
      { live with resetPart := .executed, link := { live.link with replies := [.immediate ⟨0x85, 9, .ok, 0, []⟩] } }
    waiting.dueAfter .transmitNextFrame 0 ∧ waiting.resetPart = .executed ∧ waiting.link.notices = [] ∧
      waiting.link.replies = .immediate ⟨0x85, 9, .ok, 0, []⟩ :: [] := by
  repeat' (first | decide +kernel | apply due_of | apply State.Executes.mk | apply And.intro)

theorem witness_FramesAnsweredWithoutExecution :
    ((Instr.badKindFrame 9 0x10 [1]).frame = some ⟨0x10, 9, [1]⟩ ∧ isRequestKind 0x10 = true ∧ live.takesAtOnce = true ∧
      lengthFits 0x10 1 = false) ∧
    ((Instr.readTime 9).frame = some ⟨0x10, 9, []⟩ ∧ lengthFits 0x10 0 = true ∧ ready.takesAtOnce = true ∧
      ready.isOpen = false ∧ (0x10 : Byte) ∉ [(0x01 : Byte), 0x02, 0x04, 0x05]) ∧
    (let s := live.cacheReply ⟨0x90, 9, .ok, 0, []⟩;
      s.takesAtOnce = true ∧ s.isOpen = true ∧ (9 : Byte) ≠ 0 ∧ s.cached 9 = some ⟨0x90, 9, .ok, 0, []⟩) ∧
    (let s := withAwaiting live [⟨.readJournal, 9⟩];
      s.takesAtOnce = true ∧ s.isOpen = true ∧ s.cached 9 = none ∧ s.inFlight 9 = true) ∧
    isRequestKind 0x00 = false ∧ isRequestKind 0xFF = false ∧
    (State.reset.phase ≠ .running ∧ live.phase = .running ∧ (live.assemble [0xA5] .length).takesAtOnce = false) ∧
    (let full := ((live.pushReply ⟨0x90, 9, .ok, 0, []⟩).pushReply ⟨0x90, 8, .ok, 0, []⟩ |>.pushReply ⟨0x90, 7, .ok, 0, []⟩).pushReply
        ⟨0x90, 6, .ok, 0, []⟩;
      full.canTake = false ∧ full.phase = .running ∧ full.link.assembler = .hunt ∧ full.link.fifo = [] ∧
        (Frame.mk 0x10 9 []).payload.length ≤ 240 ∧ (full.assemble (Frame.mk 0x10 9 []).bytes .waiting).canTake = false ∧
        (full.assemble (List.replicate 1018 0) .waiting).link.fifo.length + (Frame.mk 0x10 9 []).bytes.length ≤ 1024) := by
  decide +kernel

theorem witness_FramesSpellTheirCommands :
    (Instr.appendSteps 9 0 0 (List.replicate 19 ⟨2, 0, 0, 1, 0⟩)).wellFormed = true ∧
    (Instr.appendSteps 9 0 0 (List.replicate 19 ⟨2, 0, 0, 1, 0⟩)).frame.isSome = true ∧
    (Instr.badKindFrame 9 0xFF []).wellFormed = true ∧ (Instr.badKindFrame 9 0xFF []).frame = some ⟨0xFF, 9, []⟩ := by
  decide +kernel

theorem witness_FrameBytesReachTheDispatcher :
    ready.canTake = true ∧ ready.link.fifo = [] ∧ ready.link.assembler = .hunt ∧
    (Frame.mk 0x04 9 (List.replicate 240 0xA5)).payload.length ≤ 240 ∧
    (let s : State := { live with session := { live.session with keepalive := 0 } };
      s.session.status = .opened ∧ s.session.keepalive = 0 ∧ s.session.silence ≠ none) ∧
    (live.session.status = .opened ∧ live.session.keepalive ≠ 0) ∧
    ready.session.status = .closed := by
  decide +kernel

theorem witness_ReceivedBytesAreTakenOrDropped :
    State.reset.phase ≠ .running ∧
    (ready.phase = .running ∧ 1024 ≤ ({ ready with link := { ready.link with fifo := List.replicate 1024 0 } } : State).link.fifo.length) ∧
    (ready.link.fifo = [] ∧ ready.link.assembler = .hunt) ∧
    ((1 : Byte).toNat < 2 ∧ 242 < (243 : Byte).toNat ∧
      (ready.assemble [0xA5, 1] .length).link.assembler = .length ∧
      (ready.assemble [0xA5, 1] .length).link.fifo = 0xA5 :: 1 :: []) ∧
    (let s := ready.assemble [0xA5, 2, 1, 7, 0, 0] .body;
      s.link.assembler = .body ∧ s.link.fifo = 0xA5 :: 2 :: [1, 7, 0, 0] ∧ (2 : Byte).toNat + 2 ≤ [1, 7, 0, 0].length ∧
        (([1, 7, 0, 0] : List Byte).drop 2).take 2 ≠ le16 (crc16 (2 :: ([1, 7, 0, 0] : List Byte).take 2))) ∧
    (ready.isOpen = false ∧ live.isOpen = true ∧ ∃ e ∈ (withFault ⟨0, 0, 1, 0⟩).events.queue, e.isLinkFault = true) ∧
    (∀ n ∈ [30, 31], (∀ e ∈ (withHeld n []).events.queue, e.isLinkFault = false ∧ e.isLost = false) ∧
      (withHeld n []).events.queue.length = n) ∧
    ∀ n ∈ [65534, 65535], (withHeld 31 [⟨32, .eventsLost n, true⟩]).events.queue =
        List.replicate 31 ⟨1, .trackHeld 0 0, true⟩ ++ [⟨32, .eventsLost n, true⟩] ∧
      ∀ e ∈ (withHeld 31 [⟨32, .eventsLost n, true⟩]).events.queue, e.isLinkFault = false := by
  decide +kernel

theorem witness_GapTimeoutDiscardsThePartialFrame :
    ((ready.assemble [0xA5] .length).isOpen = false ∧ (ready.assemble [0xA5] .length).dueAfter .gapTimeout 277778) ∧
    (live.assemble [0xA5] .length).isOpen = true ∧ (live.assemble [0xA5] .length).dueAfter .gapTimeout 277778 ∧
    (∀ e ∈ live.events.queue, e.isLinkFault = false ∧ e.isLost = false) ∧ live.events.queue.length < 31 ∧
    (let s := (withEvents live [⟨1, .linkFault ⟨0, 0, 1, 0⟩, true⟩] 2).assemble [0xA5] .length;
      s.dueAfter .gapTimeout 277778 ∧ s.isOpen = true ∧ ∃ e ∈ s.events.queue, e.isLinkFault = true) := by
  repeat' (first | decide +kernel | apply due_of | apply State.Executes.mk | apply And.intro)

theorem witness_ArbiterTakesNoticesRepliesEvents :
    (let s : State := { live with link := { live.link with notices := [.hello .power 0 0], txd := some ⟨[], 5⟩ } };
      s.dueAfter .transmitNextFrame 5 ∧ s.link.notices = .hello .power 0 0 :: []) ∧
    (let s : State := { live with link := { live.link with replies := [.deferred ⟨0xC8, 9, .ok, 0, []⟩ true] } };
      s.dueAfter .transmitNextFrame 0 ∧ s.link.notices = [] ∧
        s.link.replies = .deferred ⟨0xC8, 9, .ok, 0, []⟩ true :: []) ∧
    (let s := live.pushReply ⟨0x90, 9, .ok, 0, []⟩;
      s.dueAfter .transmitNextFrame 0 ∧ s.link.notices = [] ∧ s.link.replies = .immediate ⟨0x90, 9, .ok, 0, []⟩ :: [] ∧
        ¬(s.resetPart = .executed ∧ (0x90 : Byte) = 0x85 ∧ Status.ok = .ok)) ∧
    (let s : State := { live.pushReply ⟨0x90, 9, .ok, 0, []⟩ with resetPart := .executed };
      s.dueAfter .transmitNextFrame 0 ∧ s.link.notices = [] ∧ s.link.replies = .immediate ⟨0x90, 9, .ok, 0, []⟩ :: [] ∧
        ¬(s.resetPart = .executed ∧ (0x90 : Byte) = 0x85 ∧ Status.ok = .ok)) ∧
    (let s := withEvents live [⟨1, .trackHeld 0 0, true⟩, ⟨2, .trackHeld 0 0, false⟩] 3;
      s.dueAfter .transmitNextFrame 0 ∧ s.link.notices = [] ∧ s.link.replies = [] ∧
        s.events.queue = [⟨1, .trackHeld 0 0, true⟩] ++ ⟨2, .trackHeld 0 0, false⟩ :: [] ∧
        ∀ x ∈ [(⟨1, .trackHeld 0 0, true⟩ : Entry)], x.sent = true) := by
  repeat' (first | decide +kernel | apply due_of | apply State.Executes.mk | apply And.intro)

theorem witness_RepliesEnterTheCache :
    (let r : Reply := ⟨0x90, 9, .ok, 0, []⟩;
      ready.isOpen = false ∧ r.tag ≠ 0 ∧ r.status ≠ .windowFull ∧ live.isOpen = true) ∧
    ({ live with link := { live.link with cache := List.replicate 8 ⟨0x90, 1, .ok, 0, []⟩ } } : State).link.cache.length = 8 ∧
    ({ live with link := { live.link with cache := List.replicate 7 ⟨0x90, 1, .ok, 0, []⟩ } } : State).link.cache.length < 8 ∧
    (live.cacheReply ⟨0x90, 9, .ok, 0, []⟩).cached 9 = some ⟨0x90, 9, .ok, 0, []⟩ ∧
    (live.cacheReply ⟨0x90, 9, .ok, 0, []⟩).cached 8 = none := by
  decide +kernel

theorem test_tags_in_flight_hold_slots :
    let r : Reply := ⟨0xC8, 9, .ok, 0, []⟩
    let awaiting := withAwaiting live [⟨.readJournal, 9⟩]
    let composed : State := { live with link := { live.link with replies := [.deferred r true, .immediate ⟨0x90, 8, .ok, 0, []⟩] } }
    (awaiting.inFlight 9 = true ∧ awaiting.inFlight 8 = false ∧ awaiting.heldSlots = 1) ∧
    (composed.inFlight 9 = true ∧ composed.inFlight 8 = false ∧ composed.heldSlots = 1) := by
  decide +kernel

theorem witness_OpenPageTakesTheLowestFreePage :
    live.isOpen = true ∧ live.Executes 0x20 9 ∧ (15 : Word32).toNat < 16 ∧ 4 ≤ (4 : Byte).toNat ∧
    (16 ≤ (16 : Word32).toNat ∧ (3 : Byte).toNat < 4) ∧
    (∀ p : PageId, ({ live with pages := Vector.replicate 64 (pageOf .sealed none) } : State).pages[p].state ≠ .free) ∧
    (let s : State := { live with pages := (Vector.replicate 64 (pageOf .sealed none)).set 63 Page.cleared };
      s.isOpen = true ∧ s.Executes 0x20 9 ∧ s.pages[(63 : PageId)].state = .free ∧
        ∀ q : PageId, q < 63 → s.pages[q].state ≠ .free) := by
  repeat' (first | decide +kernel | apply due_of | apply State.Executes.mk | apply And.intro)

theorem witness_AppendStepsTakesAllOrNone :
    let s := withPage live 0 (pageOf .opened none)
    let full := withPage live 0 { pageOf .opened none with steps := List.replicate 127 (.mark 999 7) }
    let last : StepRecord := ⟨4, 0, 999, 0, 7⟩
    s.isOpen = true ∧ s.Executes 0x21 9 ∧ full.Executes 0x21 9 ∧ 1 ≤ [last].length ∧ [last].length ≤ 19 ∧
      s.pages[(0 : PageId)].state = .opened ∧
      checkSteps 1000 0 500 [⟨4, 0, 499, 0, 7⟩] = .error 0 ∧ checkSteps 1000 0 999 [last, last] = .ok [.mark 999 7, .mark 999 7] ∧
      128 < full.pages[(0 : PageId)].steps.length + [last, last].length ∧
      full.pages[(0 : PageId)].steps.length + [last].length ≤ 128 ∧ [last].length ≤ full.freeSlots ∧ (1 : Byte) ≠ 0 ∧
      live.Executes 0x21 9 ∧ live.pages[(0 : PageId)].state = .free ∧
      (withPage live 0 (pageOf .sealed none)).pages[(0 : PageId)].state = .sealed ∧
      (inState .idle).Executes 0x21 9 ∧ (inState .idle).pages[(6 : PageId)].state = .queued ∧
      (playingAt 1 []).Executes 0x21 9 ∧ (playingAt 1 []).pages[(5 : PageId)].state = .active := by
  repeat' (first | decide +kernel | apply due_of | apply State.Executes.mk | apply And.intro)

theorem witness_StepsAreCheckedAndKept :
    checkSteps 1000 0 0 [⟨3, 1, 100, 4, 900⟩, ⟨5, 0x33, 999, 0, 0⟩] =
      .ok [.pulse 100 4 true 900, .gate 999 3 0 .fault true] ∧
    stepContents ⟨5, 0x33, 999, 0, 0⟩ = some (.gate 999 3 0 .fault true) ∧
    (checkSteps 1000 0 0 [⟨2, 0, 8, 1, 0⟩, ⟨2, 0, 7, 1, 0⟩, ⟨2, 0, 6, 0, 0⟩] = .error 1 ∧
      checkSteps 1000 0 0 [⟨2, 0, 8, 1, 0⟩] = .ok [.toggle 8 1]) ∧
    stepContents ⟨1, 0, 8, 5, 4⟩ = some (.drive 8 5 4) ∧ stepContents ⟨1, 0, 8, 5, 2⟩ = none ∧
    stepContents ⟨3, 0, 8, 1, 0⟩ = none ∧ stepContents ⟨4, 0, 8, 0, 0xFFFF⟩ = some (.mark 8 0xFFFF) ∧
    stepContents ⟨5, 4, 8, 0, 0⟩ = none ∧ stepContents ⟨6, 0, 8, 0, 0⟩ = none := by
  decide +kernel

theorem witness_SealAndDiscardPages :
    let s (st : PageState) := withPage live 63 (pageOf st (some 3))
    live.isOpen = true ∧ (s .opened).Executes 0x22 9 ∧ (s .opened).pages[(63 : PageId)].state = .opened ∧
      (s .sealed).Executes 0x23 9 ∧ (s .sealed).pages[(63 : PageId)].state = .sealed ∧
      (s .queued).pages[(63 : PageId)].state = .queued ∧ (s .active).pages[(63 : PageId)].state = .active ∧
      live.pages[(63 : PageId)].state = .free ∧ live.Executes 0x22 9 ∧ live.Executes 0x23 9 ∧ (s .sealed).Executes 0x22 9 ∧
      (s .queued).Executes 0x22 9 ∧ (s .active).Executes 0x22 9 ∧ (s .opened).Executes 0x23 9 ∧ (s .queued).Executes 0x23 9 ∧
      (s .active).Executes 0x23 9 := by
  repeat' (first | decide +kernel | apply due_of | apply State.Executes.mk | apply And.intro)

theorem witness_PageReadsReportThePool :
    live.isOpen = true ∧ live.Executes 0x24 9 ∧ (127 : Byte).toNat ≤ 127 ∧ 127 < (128 : Byte).toNat ∧ live.Executes 0x25 9 := by
  repeat' (first | decide +kernel | apply due_of | apply State.Executes.mk | apply And.intro)

/-- The states of a track with a group, no page active or one. -/
def everyState : List TrackState :=
  [.idle, .faulted, .armed ⟨.timed 64 false, true⟩, .holding none, .holding (some 64), .playing (contextAt 1 []),
    .stalled (contextAt 2 []) (gateOn .continue none none)]

theorem witness_ConfigureTrackFormsTheGroup :
    let s := withLine live 15 ⟨true, .output true⟩
    let group : LineSet := 0x8000
    (s.isOpen = true ∧ s.Executes 0x30 9 ∧ (1 : Byte) ≠ 0 ∧ Policy.ofByte 3 = some .repeatLast ∧ (3 : Byte).toNat < 4 ∧
      group ≠ 0 ∧ group &&& ~~~group = 0 ∧ (∀ l : LineId, group.getLsbD l = true → s.lines[l].role = .output true) ∧
      (∀ u : TrackId, u ≠ 7 → s.tracks[u].group &&& group = 0) ∧ s.tracks[(7 : TrackId)].state = .disabled ∧
      s.tracks[(7 : TrackId)].queue = []) ∧
    (∀ st ∈ everyState, (inState st).canTake = true ∧ (inState st).isOpen = true ∧
      (inState st).tracks[(3 : TrackId)].state = st ∧ (4 : LineSet) = (inState st).tracks[(3 : TrackId)].group ∧
      (∀ l : LineId, (4 : LineSet).getLsbD l = true → (inState st).lines[l].role = .output false) ∧
      (∀ u : TrackId, u ≠ 3 → (inState st).tracks[u].group &&& 4 = 0) ∧
      ∀ q ∈ (inState st).tracks[(3 : TrackId)].queue, (inState st).pages[q].footprint &&& ~~~4 = 0) ∧
    (inState (.armed ⟨.timed 64 false, true⟩)).Executes 0x30 9 := by
  repeat' (first | decide +kernel | apply due_of | apply State.Executes.mk | apply And.intro)

theorem witness_ConfigureTrackDisablesOrRefuses :
    let s := grouped .idle []
    let q := idleTrack
    let other := withTrack s 0 { trackOf .idle [] with group := 8 }
    s.isOpen = true ∧ s.Executes 0x30 9 ∧ q.Executes 0x30 9 ∧ (playingAt 1 []).Executes 0x30 9 ∧
      s.tracks[(3 : TrackId)].state = .idle ∧ s.tracks[(3 : TrackId)].queue = [] ∧
      live.tracks[(3 : TrackId)].state = .disabled ∧ (grouped .faulted []).tracks[(3 : TrackId)].state = .faulted ∧
      q.tracks[(3 : TrackId)].queue ≠ [] ∧
      ((playingAt 1 []).tracks[(3 : TrackId)].state ≠ .disabled ∧ (playingAt 1 []).tracks[(3 : TrackId)].state ≠ .idle ∧
        (playingAt 1 []).tracks[(3 : TrackId)].state ≠ .faulted) ∧
      (1 : Byte) ≠ 0 ∧ Policy.ofByte 4 = none ∧ Policy.ofByte 3 = some .repeatLast ∧ 4 ≤ (4 : Byte).toNat ∧
      (3 : Byte).toNat < 4 ∧ (8 : LineSet) &&& ~~~4 ≠ 0 ∧ (4 : LineSet) &&& ~~~4 = 0 ∧
      (12 : LineSet) ≠ (playingAt 1 []).tracks[(3 : TrackId)].group ∧
      ((8 : LineSet).getLsbD 3 = true ∧ s.lines[(3 : LineId)].role = .unused) ∧
      ((0 : TrackId) ≠ 3 ∧ other.tracks[(0 : TrackId)].group &&& 8 ≠ 0) ∧ 6 ∈ q.tracks[(3 : TrackId)].queue ∧
      q.pages[(6 : PageId)].footprint &&& ~~~8 ≠ 0 := by
  repeat' (first | decide +kernel | apply due_of | apply State.Executes.mk | apply And.intro)

theorem witness_QueuePageJoinsTheTail :
    let s := withPage (grouped .idle []) 6 (pageOf .sealed none)
    let full := withPage (grouped .idle [0, 1, 2, 3, 4, 5, 7, 8]) 6 (pageOf .sealed none)
    let wide := withPage (grouped .idle []) 6 { pageOf .sealed none with footprint := 8 }
    s.isOpen = true ∧ s.Executes 0x31 9 ∧ s.tracks[(3 : TrackId)].state ≠ .disabled ∧
      s.tracks[(3 : TrackId)].state ≠ .faulted ∧ s.pages[(6 : PageId)].state = .sealed ∧
      8 ≤ full.tracks[(3 : TrackId)].queue.length ∧ s.tracks[(3 : TrackId)].queue.length < 8 ∧
      wide.pages[(6 : PageId)].footprint &&& ~~~wide.tracks[(3 : TrackId)].group ≠ 0 ∧
      s.pages[(6 : PageId)].footprint &&& ~~~s.tracks[(3 : TrackId)].group = 0 ∧ full.Executes 0x31 9 ∧
      wide.Executes 0x31 9 ∧ live.Executes 0x31 9 ∧ live.tracks[(3 : TrackId)].state = .disabled ∧
      (grouped .faulted []).Executes 0x31 9 ∧ s.pages[(7 : PageId)].state = .free ∧ idleTrack.Executes 0x31 9 ∧
      idleTrack.pages[(6 : PageId)].state = .queued ∧ (playingAt 1 []).Executes 0x31 9 ∧
      (playingAt 1 []).pages[(5 : PageId)].state = .active := by
  repeat' (first | decide +kernel | apply due_of | apply State.Executes.mk | apply And.intro)

theorem witness_FlushQueueReturnsThePages :
    let armed := grouped (.armed ⟨.onTrigger 1 0, true⟩) [6]
    let release := grouped (.holding (some 64)) [6]
    idleTrack.isOpen = true ∧ idleTrack.Executes 0x32 9 ∧ idleTrack.tracks[(3 : TrackId)].state = .idle ∧
      idleTrack.tracks[(3 : TrackId)].queue.Nodup ∧ 6 ∈ idleTrack.tracks[(3 : TrackId)].queue ∧
      idleTrack.pages[(6 : PageId)].retain = true ∧ armed.Executes 0x32 9 ∧
      armed.tracks[(3 : TrackId)].state = .armed ⟨.onTrigger 1 0, true⟩ ∧ release.Executes 0x32 9 ∧
      release.tracks[(3 : TrackId)].state = .holding (some 64) ∧ (inState (.holding none)).Executes 0x32 9 ∧
      (inState (.holding none)).tracks[(3 : TrackId)].state = .holding none ∧ (playingAt 1 []).Executes 0x32 9 ∧
      (playingAt 1 []).tracks[(3 : TrackId)].state = .playing (contextAt 1 []) ∧
      (inState (.armed ⟨.onTrigger 1 0, true⟩)).tracks[(3 : TrackId)].queue.Nodup ∧
      (withAwaiting armed [⟨.start 3, 1⟩]).Executes 0x32 9 ∧
      (withAwaiting armed [⟨.start 3, 1⟩]).link.awaiting = [] ++ ⟨.start 3, 1⟩ :: [] := by
  repeat' (first | decide +kernel | apply due_of | apply State.Executes.mk | apply And.intro)

theorem witness_StartsAreArmedAhead :
    let seeking : State := { idleTrack with reference := { idleTrack.reference with status := .seeking } }
    idleTrack.isOpen = true ∧ idleTrack.Executes 0x33 9 ∧ idleTrack.tracks[(3 : TrackId)].state = .idle ∧
      idleTrack.tracks[(3 : TrackId)].queue ≠ [] ∧ 64 ≤ ((64 : Stamp) - idleTrack.timeline).toInt ∧
      ((63 : Stamp) - idleTrack.timeline).toInt < 64 ∧ 64 ≤ (64 : Word32).toNat ∧ (63 : Word32).toNat < 64 ∧
      (0 : Word32).toNat ≤ idleTrack.reference.epoch.toNat ∧ idleTrack.reference.epoch.toNat < (1 : Word32).toNat ∧
      seeking.reference.status = .seeking ∧ seeking.Executes 0x33 9 ∧ idleTrack.reference.status ≠ .seeking ∧
      (1 : Byte).toNat < 2 ∧ (playingAt 1 []).Executes 0x33 9 ∧ (playingAt 1 []).tracks[(3 : TrackId)].state ≠ .idle ∧
      (grouped .idle []).Executes 0x33 9 ∧ (grouped .idle []).tracks[(3 : TrackId)].queue = [] ∧
      (2 ≤ (2 : Byte).toNat ∧ (1 : Byte) ≠ 0 ∧ (1 : Word32) ≠ 0 ∧ (1 : Stamp) ≠ 0 ∧ 2 ^ 32 ≤ (0x100000000 : Stamp).toNat ∧
        (63 : Stamp).toNat < 64 ∧ 4 ≤ (4 : Byte).toNat) ∧
      (idleTrack.cached 9 = none ∧ idleTrack.inFlight 9 = false ∧
        (Frame.mk 0x33 9 [8, 4, 0, 0, 0, 0, 0, 0, 0, 0, 0, 0, 0, 0]).payload = 8 :: 4 :: List.replicate 12 0 ∧
        (List.replicate 12 (0 : Byte)).length = 12) := by
  repeat' (first | decide +kernel | apply due_of | apply State.Executes.mk | apply And.intro)

theorem witness_TriggerStartsFollowTheLatch :
    let s (latch : Latch) := withLatch idleTrack latch
    (s .armed).isOpen = true ∧ (∀ latch ∈ [Latch.disarmed, .armed, .blocked, .fired 10 13 false],
      (s latch).canTake = true ∧ (s latch).tracks[(3 : TrackId)].state = .idle ∧
        (s latch).tracks[(3 : TrackId)].queue ≠ [] ∧ (s latch).triggers[(1 : TriggerId)].latch = latch) ∧
      (s .armed).Executes 0x33 9 ∧ ((10 : Stamp) + (53 : Word32).setWidth 48 - (s .armed).timeline).toInt < 64 ∧
      64 ≤ ((10 : Stamp) + (54 : Word32).setWidth 48 - (s .armed).timeline).toInt := by
  repeat' (first | decide +kernel | apply due_of | apply State.Executes.mk | apply And.intro)

theorem witness_DeferringRequestsTakeASlot :
    let four : List Deferred := [⟨.start 0, 1⟩, ⟨.start 1, 2⟩, ⟨.start 2, 3⟩, ⟨.start 4, 4⟩]
    let stopping := withTrack (playingAt 1 []) 3 { trackOf (.playing (contextAt 1 [])) [] with stopRequest := true }
    (idleTrack.isOpen = true ∧ (∀ latch ∈ [Latch.armed, .blocked],
        (withLatch idleTrack latch).tracks[(3 : TrackId)].state = .idle ∧
          (withLatch idleTrack latch).tracks[(3 : TrackId)].queue ≠ [] ∧
          (withLatch idleTrack latch).triggers[(1 : TriggerId)].latch = latch) ∧ 64 ≤ (64 : Word32).toNat ∧
        (withLatch idleTrack .blocked).Executes 0x33 9 ∧
        (withLatch idleTrack (.fired 10 13 false)).triggers[(1 : TriggerId)].latch = .fired 10 13 false ∧
        (withLatch idleTrack (.fired 10 13 false)).tracks[(3 : TrackId)].state = .idle ∧
        (withLatch idleTrack (.fired 10 13 false)).Executes 0x33 9 ∧
        64 ≤ ((10 : Stamp) + (54 : Word32).setWidth 48 - idleTrack.timeline).toInt ∧ idleTrack.reference.epoch.toNat < (64 : Word32).toNat ∧
        idleTrack.reference.status ≠ .seeking) ∧
    idleTrack.isOpen = true ∧ idleTrack.Executes 0x33 9 ∧ 64 ≤ ((64 : Stamp) - idleTrack.timeline).toInt ∧
      (withAwaiting idleTrack (four.take 3)).heldSlots < 4 ∧ 4 ≤ (withAwaiting idleTrack four).heldSlots ∧
      (withAwaiting idleTrack four).Executes 0x33 9 ∧ (playingAt 1 []).Executes 0x34 9 ∧
      (playingAt 1 []).tracks[(3 : TrackId)].state.context ≠ none ∧
      (playingAt 1 []).tracks[(3 : TrackId)].stopRequest = false ∧ stopping.tracks[(3 : TrackId)].stopRequest = true ∧
      (withAwaiting (playingAt 1 []) (four.take 3)).heldSlots < 4 ∧ 4 ≤ (withAwaiting (playingAt 1 []) four).heldSlots := by
  repeat' (first | decide +kernel | apply due_of | apply State.Executes.mk | apply And.intro)

theorem witness_StopsTakeTheTrackToIdle :
    (playingAt 1 []).isOpen = true ∧ (playingAt 1 []).Executes 0x34 9 ∧
    (playingAt 1 []).tracks[(3 : TrackId)].state.context = some (contextAt 1 []) ∧
    (playingAt 1 []).tracks[(3 : TrackId)].pendingConfig = none ∧
    (let held := withAwaiting (playingAt 1 []) [⟨.readJournal, 1⟩, ⟨.stopEnd 3, 2⟩];
      held.Executes 0x34 9 ∧ held.link.awaiting = [⟨.readJournal, 1⟩] ++ ⟨.stopEnd 3, 2⟩ :: [] ∧
        ∀ d ∈ [(⟨.readJournal, 1⟩ : Deferred)] ++ [], d.owner ≠ .stopEnd 3) ∧
    ((withPending (playingAt 1 [])).tracks[(3 : TrackId)].state.context ≠ none ∧ (withPending (playingAt 1 [])).Executes 0x34 9 ∧
      (withPending (playingAt 1 [])).Applied (applied (withPending (playingAt 1 []))) 3 pendingHigh) ∧
    idleTrack.tracks[(3 : TrackId)].state = .idle ∧ idleTrack.tracks[(0 : TrackId)].state = .disabled ∧
    idleTrack.Executes 0x34 9 ∧ idleTrack.link.awaiting = [] ∧
    (∀ st ∈ everyState, (inState st).canTake = true ∧ (inState st).tracks[(3 : TrackId)].state = st ∧
      (inState st).tracks[(3 : TrackId)].pendingConfig = none ∧ (inState st).link.awaiting = []) ∧
    (inState (.armed ⟨.timed 64 false, true⟩)).Executes 0x34 9 ∧ (inState (.holding (some 64))).Executes 0x34 9 ∧
    (inState .faulted).Executes 0x34 9 ∧
    (idleTrack.isOpen = true ∧ idleTrack.cached 9 = none ∧ idleTrack.inFlight 9 = false ∧
      (Frame.mk 0x34 9 [3, 2]).payload = [3, 2] ∧ 2 ≤ (2 : Byte).toNat) := by
  repeat' (first | decide +kernel | apply due_of | apply applied_of | apply State.Executes.mk | apply And.intro)

theorem witness_HoldAndReleaseSetTheFlag :
    let held := withTrack (playingAt 1 []) 3 { trackOf (.playing (contextAt 1 [])) [] with hold := true }
    let stopping := withTrack (playingAt 1 []) 3 { trackOf (.playing (contextAt 1 [])) [] with stopRequest := true }
    let holding := grouped (.holding none) [6]
    held.isOpen = true ∧ held.Executes 0x35 9 ∧ held.Executes 0x36 9 ∧
      held.tracks[(3 : TrackId)].state.context ≠ none ∧ held.tracks[(3 : TrackId)].stopRequest = false ∧
      stopping.tracks[(3 : TrackId)].stopRequest = true ∧ held.tracks[(3 : TrackId)].hold = true ∧
      stopping.tracks[(3 : TrackId)].hold = false ∧ holding.Executes 0x36 9 ∧
      holding.tracks[(3 : TrackId)].state = .holding none ∧ holding.tracks[(3 : TrackId)].queue ≠ [] ∧
      holding.Executes 0x35 9 ∧ (inState (.armed ⟨.timed 64 false, true⟩)).Executes 0x35 9 ∧
      (inState (.armed ⟨.timed 64 false, true⟩)).Executes 0x36 9 ∧ idleTrack.Executes 0x35 9 ∧ idleTrack.Executes 0x36 9 ∧
      idleTrack.tracks[(3 : TrackId)].state = .idle ∧ live.tracks[(3 : TrackId)].state = .disabled ∧
      (inState .faulted).tracks[(3 : TrackId)].state = .faulted ∧
      (grouped (.holding none) []).tracks[(3 : TrackId)].queue = [] ∧ (grouped (.holding none) []).Executes 0x36 9 ∧
      (inState (.holding (some 64))).Executes 0x36 9 ∧
      (inState (.holding (some 64))).tracks[(3 : TrackId)].state = .holding (some 64) := by
  repeat' (first | decide +kernel | apply due_of | apply State.Executes.mk | apply And.intro)

theorem witness_ReadTrackReportsTheTrack :
    let last : Playback := ⟨5, 0, 0, 65535, 1, 0, [], 0⟩
    (grouped (.playing last) []).isOpen = true ∧ (grouped (.playing last) []).Executes 0x37 9 ∧
      (grouped (.playing last) []).tracks[(3 : TrackId)].state = .playing last ∧ last.repIndex < 65536 ∧
      idleTrack.tracks[(3 : TrackId)].state = .idle ∧ (grouped .faulted []).tracks[(3 : TrackId)].state = .faulted ∧
      idleTrack.Executes 0x37 9 ∧ (inState (.stalled last (gateOn .fault none none))).Executes 0x37 9 ∧
      (inState (.stalled last (gateOn .fault none none))).tracks[(3 : TrackId)].state =
        .stalled last (gateOn .fault none none) ∧
      (∀ form ∈ [StartForm.timed 64 true, .onTrigger 3 5, .onEpoch 7 5],
        (inState (.armed ⟨form, true⟩)).canTake = true ∧
          (inState (.armed ⟨form, true⟩)).tracks[(3 : TrackId)].state = .armed ⟨form, true⟩) ∧
      (inState (.holding none)).Executes 0x37 9 ∧ (inState (.holding none)).tracks[(3 : TrackId)].state = .holding none ∧
      (inState (.holding (some 64))).tracks[(3 : TrackId)].state = .holding (some 64) := by
  repeat' (first | decide +kernel | apply due_of | apply State.Executes.mk | apply And.intro)

theorem witness_StartsMakeTheFrontPageActive :
    let armed := withPage (grouped (.armed ⟨.timed 64 false, true⟩) [6]) 6 (pageOf .queued (some 3))
    let late := withPage (grouped (.armed ⟨.timed 0 true, false⟩) [6]) 6 (pageOf .queued (some 3))
    let release := withPage (grouped (.holding (some 64)) [6]) 6 (pageOf .queued (some 3))
    armed.tracks[(3 : TrackId)].queue = 6 :: [] ∧ armed.isOpen = true ∧ (armed.afterPeriods 64).isOpen = true ∧
      armed.tracks[(3 : TrackId)].state = .armed ⟨.timed 64 false, true⟩ ∧ armed.dueAfter (.armedStartEffect 3) 64 ∧
      late.dueAfter (.armedStartEffect 3) 0 ∧ release.tracks[(3 : TrackId)].state = .holding (some 64) ∧
      release.dueAfter (.releaseStartEffect 3) 64 ∧
      (playingAt 0 []).tracks[(3 : TrackId)].state = .playing (contextAt 0 []) ∧
      (playingAt 0 []).pages[(5 : PageId)].steps.head? = some (.pulse 100 4 true 400) := by
  repeat' (first | decide +kernel | apply due_of | apply State.Executes.mk | apply And.intro)

theorem witness_StepsTakeEffectAtTheirOffset :
    (playingAt 0 []).tracks[(3 : TrackId)].state = .playing (contextAt 0 []) ∧ (contextAt 0 []).pulseEnds = [] ∧
    (playingAt 0 []).pages[(contextAt 0 []).page].steps.drop 0 = .pulse 100 4 true 400 :: [.mark 500 7] ∧
    (Step.pulse 100 4 true 400).offset.toNat < (playingAt 0 []).pages[(contextAt 0 []).page].period.toNat ∧
    (playingAt 0 []).dueAfter (.trackActionTick 3) 100 ∧
    ((contextAt 0 []).pulseEnds.Pairwise fun a b => a.offset.toNat ≤ b.offset.toNat) ∧
    let later : List PulseEnd := [⟨101, 4, false⟩, ⟨500, 4, true⟩]
    (playingAt 0 later).dueAfter (.trackActionTick 3) 100 ∧
      (∀ e ∈ (contextAt 0 later).pulseEnds, (Step.pulse 100 4 true 400).offset.toNat < e.offset.toNat) ∧
      ((contextAt 0 later).pulseEnds.Pairwise fun a b => a.offset.toNat ≤ b.offset.toNat) ∧
      0 < ((contextAt 0 []).repStart + (100 : Word32).setWidth 48 + (contextAt 0 []).stall - (playingAt 0 []).timeline).toInt ∧
      (playingAt 0 []).prescale < (playingAt 0 []).divider ∧ (playingAt 0 []).phase ≠ .reset ∧
      (let s : State := { playingAt 0 [] with timeline := 100 };
        ¬0 < ((contextAt 0 []).repStart + (100 : Word32).setWidth 48 + (contextAt 0 []).stall - s.timeline).toInt ∧
          s.dueAfter (.trackActionTick 3) 0) ∧
      (∀ c, (grouped .idle []).tracks[(3 : TrackId)].state ≠ .playing c) ∧
      ∀ x, LineRole.unused ≠ .output x := by
  refine ⟨by decide +kernel, by decide +kernel, by decide +kernel, by decide +kernel, due_of (by decide +kernel) (by decide +kernel),
    by decide +kernel, due_of (by decide +kernel) (by decide +kernel), by decide +kernel, by decide +kernel, by decide +kernel,
    by decide +kernel, by decide +kernel, ⟨by decide +kernel, due_of (by decide +kernel) (by decide +kernel)⟩, ?_, by nofun⟩
  rw [show (grouped .idle []).tracks[(3 : TrackId)].state = .idle by decide +kernel]; nofun

theorem witness_PageTimeRunsToThePeriod :
    let ends : List PulseEnd := [⟨499, 4, false⟩]
    let run (repeats : Word16) := withPage (grouped (.playing (contextAt 2 [])) []) 5 { pageOf .active (some 3) with repeats := repeats }
    let both : List PulseEnd := [⟨500, 4, false⟩, ⟨500, 4, true⟩, ⟨1000, 4, false⟩]
    ((playingAt 1 ends).tracks[(3 : TrackId)].state = .playing (contextAt 1 ends) ∧
      (playingAt 1 ends).dueAfter (.trackActionTick 3) 499 ∧
      (contextAt 1 ends).pulseEnds.filter (fun e => e.offset.toNat == 499) ≠ [] ∧
      (∀ f ∈ (contextAt 1 ends).pulseEnds, 499 ≤ f.offset.toNat) ∧
      499 < (playingAt 1 ends).pages[(5 : PageId)].period.toNat ∧
      ∀ st ∈ (playingAt 1 ends).pages[(5 : PageId)].steps.drop 1, 499 ≤ st.offset.toNat) ∧
    ((playingAt 1 both).dueAfter (.trackActionTick 3) 500 ∧
      (contextAt 1 both).pulseEnds.filter (fun e => e.offset.toNat == 500) ≠ [] ∧
      (∀ f ∈ (contextAt 1 both).pulseEnds, 500 ≤ f.offset.toNat) ∧
      ∀ st ∈ (playingAt 1 both).pages[(5 : PageId)].steps.drop 1, 500 ≤ st.offset.toNat) ∧
    ((playingAt 2 (both.drop 2)).dueAfter (.trackActionTick 3) 1000 ∧
      (∀ f ∈ (contextAt 2 (both.drop 2)).pulseEnds, 1000 ≤ f.offset.toNat) ∧
      (playingAt 2 (both.drop 2)).pages[(5 : PageId)].steps.length ≤ 2) ∧
    ((run 0).tracks[(3 : TrackId)].state = .playing (contextAt 2 []) ∧ (run 0).pages[(5 : PageId)].steps.length ≤ 2) ∧
    ((run 0).pages[(5 : PageId)].repeats = 0 ∧ (run 1).pages[(5 : PageId)].repeats = 1) ∧
    (run 0).dueAfter (.trackActionTick 3) 1000 ∧ (run 1).dueAfter (.trackActionTick 3) 1000 ∧
    (run 2).dueAfter (.trackActionTick 3) 1000 ∧ (contextAt 2 []).repIndex + 1 < 2 ∧ ¬(contextAt 2 []).repIndex + 1 < 1 := by
  repeat' (first | decide +kernel | apply due_of | apply State.Executes.mk | apply And.intro)

theorem witness_RunEndTakesTheFirstCondition :
    let with_ (tr : Track) := withTrack (playingAt 2 []) 3 tr
    let base := trackOf (.playing (contextAt 2 [])) []
    (with_ { base with pendingConfig := some ⟨.rest, 4, true, false⟩ }).tracks[(3 : TrackId)].pendingConfig =
        some ⟨.rest, 4, true, false⟩ ∧
      (playingAt 2 []).isOpen = true ∧ (playingAt 2 []).tracks[(3 : TrackId)].pendingConfig = none ∧
      (with_ { base with stopRequest := true }).tracks[(3 : TrackId)].stopRequest = true ∧
      (with_ { base with hold := true }).tracks[(3 : TrackId)].hold = true ∧ base.stopRequest = false ∧
      base.hold = false ∧ (playingAt 2 []).pages[(5 : PageId)].holdAfter = false ∧
      (with_ { base with queue := [6] }).tracks[(3 : TrackId)].queue = 6 :: [] ∧ (6 : PageId) ≠ 5 ∧ base.queue = [] ∧
      ∀ p ∈ [Policy.holdLevels, .rest, .fault, .repeatLast],
        (with_ { base with policy := p }).tracks[(3 : TrackId)].policy = p := by
  decide +kernel

theorem witness_GatesFollowTheLatch :
    (∀ latch ∈ [Latch.fired 0 3 false, .armed, .blocked, .disarmed],
      (withLatch (playingAt 2 []) latch).triggers[(1 : TriggerId)].latch = latch) ∧
    (playingAt 2 []).isOpen = true ∧ (playingAt 2 []).tracks[(3 : TrackId)].pendingConfig = none ∧
    let s := withLatch (withPending (playingAt 2 [])) .disarmed
    s.triggers[(1 : TriggerId)].latch = .disarmed ∧ s.Applied (applied s) 3 pendingHigh := by
  repeat' (first | decide +kernel | apply applied_of | apply And.intro)

theorem witness_StalledTracksLeaveTheirGate :
    let s (action : GateAction) := stalledAt (gateOn action (some 300) none)
    let released := stalledAt (gateOn .continue none (some 7))
    released.isOpen = true ∧ released.tracks[(3 : TrackId)].state = .stalled (contextAt 2 []) (gateOn .continue none (some 7)) ∧
      (released.afterPeriods 7).isOpen = true ∧ released.dueAfter (.gateResume 3) 7 ∧
      (s .continue).dueAfter (.gateExpiry 3) 300 ∧ (s .fault).dueAfter (.gateExpiry 3) 300 ∧
      (s .fault).tracks[(3 : TrackId)].pendingConfig = none ∧ (withPending (s .fault)).dueAfter (.gateExpiry 3) 300 ∧
      (withPending (s .fault)).Applied (applied (withPending (s .fault))) 3 pendingHigh := by
  repeat' (first | decide +kernel | apply due_of | apply applied_of | apply State.Executes.mk | apply And.intro)

theorem witness_TriggersAreArmedAndDisarmed :
    let s := withLine live 8 ⟨false, .input 3 .both true none⟩
    let waiting := withLatch (grouped (.armed ⟨.onTrigger 1 0, true⟩) [6]) .armed
    s.isOpen = true ∧ s.Executes 0x40 9 ∧ Sense.ofByte 0 = some .rise ∧ Sense.ofByte 3 = some .levelHigh ∧
      Sense.ofByte 4 = some .levelLow ∧ (1 : Byte).toNat < 2 ∧ s.triggers[(3 : TriggerId)].latch = .disarmed ∧
      s.lines[(8 : LineId)].role = .input 3 .both true none ∧
      (withLatch live .blocked).triggers[(1 : TriggerId)].latch ≠ .disarmed ∧
      (withLatch live .blocked).Executes 0x41 9 ∧ (withLatch live .blocked).consumers 1 = [] ∧
      waiting.Executes 0x41 9 ∧ waiting.consumers 1 = [3] ∧
      waiting.tracks[(3 : TrackId)].state = .armed ⟨.onTrigger 1 0, true⟩ ∧
      (withLatch live .blocked).Executes 0x40 9 ∧ live.Executes 0x40 9 ∧ live.lines[(8 : LineId)].role = .unused ∧
      16 ≤ (16 : Byte).toNat ∧ 5 ≤ (5 : Byte).toNat ∧ 2 ≤ (2 : Byte).toNat ∧ live.Executes 0x41 9 ∧
      live.triggers[(1 : TriggerId)].latch = .disarmed ∧
      (let stalled := withLatch (stalledAt (gateOn .continue none none)) .armed;
        stalled.Executes 0x41 9 ∧ stalled.triggers[(1 : TriggerId)].latch ≠ .disarmed ∧ stalled.consumers 1 = [3] ∧
          stalled.tracks[(3 : TrackId)].state = .stalled (contextAt 2 []) (gateOn .continue none none) ∧
          (gateOn .continue none none).action = .continue) ∧
      (let both := withLatch (withTrack (stalledAt (gateOn .fault none none)) 0 { trackOf (.armed ⟨.onTrigger 1 0, true⟩) [6] with
            group := 8 }) .armed;
        both.Executes 0x41 9 ∧ both.triggers[(1 : TriggerId)].latch ≠ .disarmed ∧ both.consumers 1 = [0, 3] ∧ both.isOpen = true ∧
          both.tracks[(0 : TrackId)].state = .armed ⟨.onTrigger 1 0, true⟩ ∧
          both.tracks[(3 : TrackId)].state = .stalled (contextAt 2 []) (gateOn .fault none none) ∧
          (gateOn .fault none none).trigger = 1 ∧ (gateOn .fault none none).resume = none ∧
          (gateOn .fault none none).action = .fault ∧ both.tracks[(3 : TrackId)].pendingConfig = none ∧
          (withPending both).Applied (applied (withPending both)) 3 pendingHigh) := by
  repeat' (first | decide +kernel | apply due_of | apply applied_of | apply State.Executes.mk | apply And.intro)

theorem witness_EdgesFireAndReleaseEveryConsumer :
    let waiting := withLatch (grouped (.armed ⟨.onTrigger 1 0, true⟩) [6]) .armed
    let stalled := withLatch (stalledAt (gateOn .continue none none)) .armed
    (withLatch live .armed).consumers 1 = [] ∧ waiting.consumers 1 ≠ [] ∧ (0 : TrackId) ∉ waiting.consumers 1 ∧
      waiting.tracks[(3 : TrackId)].state = .armed ⟨.onTrigger 1 0, true⟩ ∧ stalled.consumers 1 ≠ [] ∧
      stalled.tracks[(3 : TrackId)].state = .stalled (contextAt 2 []) (gateOn .continue none none) ∧
      (gateOn .continue none none).trigger = 1 ∧ (gateOn .continue none none).resume = none ∧
      waiting.triggers[(1 : TriggerId)].config = some riseOn8 ∧ riseOn8.limited = false ∧
      (let counted (n : Nat) : State := withTrigger waiting 1 ⟨.armed, some ⟨8, .levelHigh, true, n, false⟩⟩;
        (counted 1).consumers 1 ≠ [] ∧ (counted 2).consumers 1 ≠ [] ∧
          (counted 2).triggers[(1 : TriggerId)].config = some ⟨8, .levelHigh, true, 2, false⟩) ∧
      live.triggers[(1 : TriggerId)].config = none ∧
      (∀ latch ∈ [Latch.disarmed, .armed, .blocked, .fired 0 3 false, .fired 0 3 true],
        (withLatch live latch).triggers[(1 : TriggerId)] = ⟨latch, some riseOn8⟩) ∧
      (let left := withTrigger (withLine live 8 ⟨false, .input 3 .both true none⟩) 1 ⟨.blocked, some ⟨8, .levelHigh, false, 0, true⟩⟩;
        left.triggers[(1 : TriggerId)].config = some ⟨8, .levelHigh, false, 0, true⟩ ∧
          left.triggers[(1 : TriggerId)].latch = .blocked ∧ left.lines[(8 : LineId)].sensedLevel = true ∧
          Sense.levelHigh.matchesEdge true = true ∧ ¬Sense.levelHigh.matchesEdge false = true) ∧
      riseOn8.sense.matchesEdge true = true ∧ ¬riseOn8.sense.matchesEdge false = true := by
  decide +kernel

theorem witness_ConsumptionEndsTheFiring :
    let s (c : TriggerConfig) := withTrigger (withLine live 8 ⟨false, .input 3 .both true none⟩) 1 ⟨.fired 0 3 false, some c⟩
    ∀ c ∈ [(⟨8, .rise, true, 1, true⟩ : TriggerConfig), ⟨8, .levelHigh, true, 2, true⟩, ⟨8, .levelLow, false, 0, true⟩],
      (s c).triggers[(1 : TriggerId)].config = some c ∧ ((c.limited = true ∧ c.remaining = 1) ∨ (c.limited = true → 1 < c.remaining)) := by
  decide +kernel

theorem witness_TimedActionsAreDueAtTheirMoment :
    (let s : State := { withLatch live (.fired 0 3 false) with timeline := 70368744177664, session := { live.session with silence := none } };
      s.triggers[(1 : TriggerId)] = ⟨.fired 0 3 false, some riseOn8⟩ ∧ s.dueAfter (.firingAgeDiscard 1) 3) ∧
    (live.prescale < live.divider ∧ live.phase ≠ .reset ∧ 0 < ((64 : Stamp) - live.timeline).toInt ∧ 63 < live.periodsTo 64 ∧
      ¬0 < ((0 : Stamp) - live.timeline).toInt) ∧
    ((playingAt 0 []).tracks[(3 : TrackId)].state = .playing (contextAt 0 []) ∧
      ((playingAt 0 []).pages[(5 : PageId)].steps.drop 0).head?.map Step.offset = some 100 ∧
      ∀ o ∈ [(100 : Nat), 1000], o ≤ (playingAt 0 []).pages[(5 : PageId)].period.toNat) ∧
    (let s := withLine (withLine live 8 ⟨false, .input 3 .both false (some 0)⟩) 9 ⟨false, .input 3 .both false (some 0)⟩;
      let told : State := { s with sample := ⟨0, 0x100⟩ };
      s.due (.edgeAcceptance 8) = some 3 ∧ s.due (.edgeAcceptance 9) = none ∧ told.due (.edgeAcceptance 8) = none ∧
        told.due (.edgeAcceptance 9) = some 3) ∧
    live.due (.gateExpiry 3) = none := by
  repeat' (first | decide +kernel | apply due_of | apply State.Executes.mk | apply And.intro)

/-- A part in which no trigger holds a line. -/
theorem noTriggerHolds {s : State} (h : ∀ k : TriggerId, s.triggers[k].latch = .disarmed) (l : LineId) :
    ∀ (k : TriggerId) (c : TriggerConfig), s.triggers[k].config = some c → c.line = l → s.triggers[k].latch = .disarmed :=
  fun k _ _ _ => h k

/-- The live part with L8 an input of filter 3. -/
def input8 (capture : CaptureEdges) (candidate : Option Stamp) : State :=
  withLine live 8 ⟨false, .input 3 capture false candidate⟩

theorem witness_ConfigureLineSetsTheRole :
    (live.isOpen = true ∧ live.Executes 0x18 9 ∧ (input8 .both none).Executes 0x18 9 ∧ idleTrack.Executes 0x18 9 ∧
      (withLatch live .armed).Executes 0x18 9) ∧
    (∀ t : TrackId, live.tracks[t].group.getLsbD 15 = false) ∧
    (∀ (k : TriggerId) (c : TriggerConfig), live.triggers[k].config = some c → c.line = 15 → live.triggers[k].latch = .disarmed) ∧
    (∀ f e v c, live.lines[(15 : LineId)].role ≠ .input f e v c) ∧
    ((input8 .both (some 0)).lines[(8 : LineId)].role = .input 3 .both false (some 0) ∧
      (input8 .both (some 0)).pinLevels.getLsbD 8 = false) ∧
    (let high : State := { input8 .both none with pinLevels := 0x100 };
      high.takesAtOnce = true ∧ high.lines[(8 : LineId)].role = .input 3 .both false none ∧ (0 : Byte) ≠ 3 ∧
        high.pinLevels.getLsbD 8 = true) ∧
    (idleTrack.tracks[(3 : TrackId)].group.getLsbD 2 = true ∧
      (withLatch live .armed).triggers[(1 : TriggerId)].config = some riseOn8 ∧ riseOn8.line = 8 ∧
      (withLatch live .armed).triggers[(1 : TriggerId)].latch ≠ .disarmed) ∧
    ((2 : Byte).toNat ≤ 2 ∧ (1 : Byte).toNat ≤ 1 ∧ (3 : Byte).toNat ≤ 3 ∧ ¬(3 : Byte).toNat ≤ 2 ∧ ¬(2 : Byte).toNat ≤ 1 ∧
      ¬(4 : Byte).toNat ≤ 3 ∧ (1 : Byte).toNat ≠ 2 ∧ (1 : Byte) ≠ 0) := by
  refine ⟨?_, by decide +kernel, noTriggerHolds (by decide +kernel) 15, ?_, by decide +kernel, by decide +kernel, by decide +kernel,
    by decide +kernel⟩
  · repeat' (first | decide +kernel | apply State.Executes.mk | apply And.intro)
  · rw [show live.lines[(15 : LineId)].role = .unused by decide +kernel]; nofun

theorem witness_SamplesMakeEdges :
    (∀ f e v c, live.lines[(8 : LineId)].role ≠ .input f e v c) ∧
    ((input8 .both none).lines[(8 : LineId)].role = .input 3 .both false none ∧
      (input8 .both (some 0)).lines[(8 : LineId)].role = .input 3 .both false (some 0) ∧ (3 : Byte) ≠ 0 ∧
      (withLine live 8 ⟨false, .input 0 .both false (some 0)⟩).lines[(8 : LineId)].role = .input 0 .both false (some 0)) ∧
    (input8 .both (some 0)).dueAfter (.edgeAcceptance 8) 3 ∧ (input8 .fall (some 0)).dueAfter (.edgeAcceptance 8) 3 ∧
    (∀ (k : TriggerId) (c : TriggerConfig), (input8 .both (some 0)).triggers[k].config = some c → c.line = 8 →
      (input8 .both (some 0)).triggers[k].latch = .disarmed) ∧
    (let both := withLine (withLine live 5 ⟨false, .input 0 .both false (some 0)⟩) 0 ⟨false, .input 0 .both false (some 0)⟩;
      both.lines[(5 : LineId)].role = .input 0 .both false (some 0) ∧ both.unfiltered 5 = true ∧ both.candidateDue 0 = true) ∧
    ((∀ m : LineId, (input8 .both (some 0)).unfiltered m = false) ∧
      (twoInputs [.inputTransition 0 true]).pending = .inputTransition 0 true :: [] ∧
      ∀ m v rest, live.pending ≠ .inputTransition m v :: rest) ∧
    (live.due (.edgeAcceptance 8) = none ∧ (input8 .both (some 0)).due (.edgeAcceptance 8) = some 3 ∧
      { input8 .both (some 0) with timeline := 3 }.due (.edgeAcceptance 8) = some 0 ∧ live.sample = ⟨0, 0⟩) ∧
    (let twice : State := { input8 .both (some 0) with sample := ⟨0x100, 0⟩ };
      let told : State := { input8 .both (some 0) with sample := ⟨0, 0x100⟩ };
      twice.sample.shown.getLsbD 8 = true ∧ told.sample.shown.getLsbD 8 = false ∧ told.sample.accepted.getLsbD 8 = true) ∧
    (CaptureEdges.fall.names (!false) = false ∧ CaptureEdges.both.names (!false) = true) ∧
    let bound := withTrigger (input8 .both (some 0)) 1 ⟨.armed, some riseOn8⟩
    (let twice := withTrigger bound 2 ⟨.armed, some riseOn8⟩;
      twice.dueAfter (.edgeAcceptance 8) 3 ∧ twice.triggers[(2 : TriggerId)].config = some riseOn8 ∧
        twice.triggers[(2 : TriggerId)].latch ≠ .disarmed ∧ twice.triggers[(1 : TriggerId)].config = some riseOn8) ∧
    bound.dueAfter (.edgeAcceptance 8) 3 ∧
      (bound.triggers[(1 : TriggerId)].config = some riseOn8 ∧ riseOn8.line = 8 ∧
        bound.triggers[(1 : TriggerId)].latch ≠ .disarmed) ∧
      ∀ j : TriggerId, bound.triggers[j].latch ≠ .disarmed → j = 1 := by
  refine ⟨?_, by decide +kernel, due_of (by decide +kernel) (by decide +kernel),
    due_of (by decide +kernel) (by decide +kernel), noTriggerHolds (by decide +kernel) 8, by decide +kernel,
    ⟨by decide +kernel, by decide +kernel, by intro m v rest; rw [show live.pending = [] from rfl]; nofun⟩,
    by decide +kernel, by decide +kernel, by decide +kernel, ⟨due_of (by decide +kernel) (by decide +kernel), by decide +kernel, by decide +kernel, by decide +kernel⟩,
    due_of (by decide +kernel) (by decide +kernel), by decide +kernel, by decide +kernel⟩
  rw [show live.lines[(8 : LineId)].role = .unused by decide +kernel]; nofun

theorem witness_UnitReadsReportTheirRecords :
    live.isOpen = true ∧ live.Executes 0x10 9 ∧ live.Executes 0x13 9 ∧ live.Executes 0x19 9 ∧
    (live.Executes 0x42 9 ∧ live.triggers[(1 : TriggerId)].config = none ∧ live.triggers[(1 : TriggerId)].latch = .disarmed ∧
      live.consumers 1 = []) ∧
    (∀ latch ∈ [Latch.disarmed, .armed, .blocked, .fired 10 13 true],
      (withLatch live latch).triggers[(1 : TriggerId)].config = some riseOn8 ∧
        (withLatch live latch).triggers[(1 : TriggerId)].latch = latch ∧ (withLatch live latch).consumers 1 = []) ∧
    (withLatch live .armed).Executes 0x42 9 ∧ (withLatch live (.fired 10 13 true)).Executes 0x42 9 := by
  repeat' (first | decide +kernel | apply due_of | apply State.Executes.mk | apply And.intro)

theorem witness_RatesAreSetWhenNothingDependsOnThem :
    let epoch := grouped (.armed ⟨.onEpoch 1 0, false⟩) [6]
    live.isOpen = true ∧ live.Executes 0x11 9 ∧ (128 : Byte).toNat ∈ [1, 2, 4, 8, 16, 32, 64, 128] ∧
      (128 : Byte).toNat ≠ live.divider ∧
      ((∀ t : TrackId, live.tracks[t].state = .disabled ∨ live.tracks[t].state = .idle) ∧
        (∀ k : TriggerId, live.triggers[k].latch = .disarmed) ∧ live.journal.records = []) ∧
      (3 : Byte).toNat ∉ [1, 2, 4, 8, 16, 32, 64, 128] ∧ (1 : Byte).toNat = live.divider ∧
      ¬(((1000 : Word32) = 0 ∧ (1000 : Word16) = 0) ∨
        (1000 ≤ (1000 : Word32).toNat ∧ (1000 : Word16).toNat < (1000 : Word32).toNat)) ∧
      (withRecords live 1).Executes 0x11 9 ∧ (withRecords live 1).journal.records ≠ [] ∧ live.Executes 0x12 9 ∧
      (1000 ≤ (1000 : Word32).toNat ∧ (999 : Word16).toNat < (1000 : Word32).toNat) ∧
      (∀ (t : TrackId) (n o : Word32) (reply : Bool), live.tracks[t].state ≠ .armed ⟨.onEpoch n o, reply⟩) ∧
      epoch.Executes 0x12 9 ∧ epoch.tracks[(3 : TrackId)].state = .armed ⟨.onEpoch 1 0, false⟩ := by
  refine ⟨by decide +kernel, ?_, by decide +kernel, by decide +kernel, by decide +kernel, by decide +kernel, by decide +kernel,
    by decide +kernel, ?_, by decide +kernel, ?_,
    by decide +kernel, ?_, ?_, by decide +kernel⟩
  · exact ⟨by decide +kernel, by decide +kernel, by decide +kernel⟩
  · exact ⟨by decide +kernel, by decide +kernel, by decide +kernel⟩
  · exact ⟨by decide +kernel, by decide +kernel, by decide +kernel⟩
  · intro t
    rw [(by decide +kernel : ∀ t : TrackId, live.tracks[t].state = .disabled) t]
    nofun
  · exact ⟨by decide +kernel, by decide +kernel, by decide +kernel⟩

theorem witness_ReferencePulsesAreChecked :
    let r : Reference := ⟨5, some 0, .seeking, 1000, 10, some 0, 1, none⟩
    let s (r : Reference) (now : Stamp) : State := { live with reference := r, timeline := now }
    live.phase ≠ .reset ∧ live.reference.status = .free ∧
      (s { r with base := none } 990).reference.base = none ∧ (s r 990).reference.base = some 0 ∧
      1000 - 10 ≤ ((990 : Stamp) - 0).toNat ∧ ((1010 : Stamp) - 0).toNat ≤ 1000 + 10 ∧
      ¬1000 - 10 ≤ ((989 : Stamp) - 0).toNat ∧ ¬((1011 : Stamp) - 0).toNat ≤ 1000 + 10 ∧
      min (r.good + 1) 255 = 2 ∧ (s r 990).isOpen = true ∧ (s r 990).dueAfter .missingPulseExpiry 20 ∧
      (s { r with status := .locked } 990).reference.status = .locked ∧
      (s { r with status := .locked } 990).dueAfter .missingPulseExpiry 20 ∧
      (s { r with status := .locked } 1011).reference.base = some 0 ∧
      (live.beginReset .pin).phase = .reset ∧ ready.isOpen = false ∧
      ({ s { r with status := .locked } 1011 with session := ready.session } : State).isOpen = false ∧
      (let held := withAwaiting (withTrack (s { r with status := .locked } 1011) 3 (trackOf (.armed ⟨.onEpoch 9 0, true⟩) [6]))
          [⟨.start 3, 1⟩];
        held.tracks[(3 : TrackId)].state = .armed ⟨.onEpoch 9 0, true⟩ ∧ held.reference.status = .locked) := by
  repeat' (first | decide +kernel | apply due_of | apply State.Executes.mk | apply And.intro)

theorem witness_ReadJournalAcknowledgesAndReturns :
    let waiting : State := { withAwaiting live [⟨.readJournal, 9⟩] with
      journal := { live.journal with waiting := some ⟨14, 100000⟩ } }
    live.isOpen = true ∧ live.Executes 0x48 9 ∧ (14 : Byte).toNat ≤ 14 ∧ (5000 : Word16).toNat ≤ 5000 ∧
      live.journal.waiting = none ∧ live.journal.records.length < (1 : Word16).toNat ∧
      (withRecords live 256).Executes 0x48 9 ∧ (256 : Word16).toNat ≤ (withRecords live 256).journal.records.length ∧
      (withRecords live 256).journal.records.drop 255 ≠ [] ∧ (withRecords live 256).journal.records.drop 256 = [] ∧
      live.heldSlots < 4 ∧ 4 ≤ (withAwaiting live (List.replicate 4 ⟨.start 0, 1⟩)).heldSlots ∧
      (1 : Byte) ≠ 0 ∧ 14 < (15 : Byte).toNat ∧ 5000 < (5001 : Word16).toNat ∧ waiting.Executes 0x48 10 ∧
      waiting.journal.waiting ≠ none ∧ waiting.dueAfter .journalWaitExpiry 100000 ∧
      (let besides := withAwaiting waiting [⟨.start 3, 8⟩, ⟨.readJournal, 9⟩];
        besides.dueAfter .journalWaitExpiry 100000 ∧ besides.link.awaiting = [⟨.start 3, 8⟩] ++ ⟨.readJournal, 9⟩ :: [] ∧
          ∀ d ∈ [(⟨.start 3, 8⟩ : Deferred)] ++ [], d.owner ≠ .readJournal) := by
  repeat' (first | decide +kernel | apply due_of | apply State.Executes.mk | apply And.intro)

theorem witness_SetJournalStoresTheWatermark :
    live.isOpen = true ∧ live.Executes 0x49 9 ∧ (256 : Word16).toNat ≤ 256 ∧ 256 < (257 : Word16).toNat ∧
    live.journal.watermark = 0 := by
  repeat' (first | decide +kernel | apply due_of | apply State.Executes.mk | apply And.intro)

theorem witness_CapturedEdgesAreRecordedOrDropped :
    let marked (n : Nat) : State := { withRecords live n with journal := { (withRecords live n).journal with watermark := 256 } }
    let gapped (count : Word32) : State :=
      { withRecords live 256 with journal := { (withRecords live 256).journal with gap := some ⟨count, 0, 0⟩ } }
    (withRecords live 255).journal.records.length < 256 ∧ (withRecords live 255).journal.waiting = none ∧
      live.journal.watermark = 0 ∧ (marked 254).journal.records.length + 1 < (marked 254).journal.watermark ∧
      (marked 255).journal.watermark ≠ 0 ∧ (marked 255).journal.watermark ≤ (marked 255).journal.records.length + 1 ∧
      (marked 255).journal.notice = false ∧ (marked 255).isOpen = true ∧ 256 ≤ (withRecords live 256).journal.records.length ∧
      (withRecords live 256).journal.gap = none ∧ (gapped 1).journal.gap = some ⟨1, 0, 0⟩ ∧ (1 : Word32) ≠ 0xFFFFFFFF ∧
      (gapped 0xFFFFFFFF).journal.gap = some ⟨0xFFFFFFFF, 0, 0⟩ ∧
      (let waiting : State := { withAwaiting live [⟨.readJournal, 9⟩] with
          journal := { live.journal with waiting := some ⟨14, 100000⟩ } };
        waiting.journal.records.length < 256 ∧ waiting.journal.waiting = some ⟨14, 100000⟩ ∧
          waiting.link.awaiting = [] ++ ⟨.readJournal, 9⟩ :: []) := by
  decide +kernel

theorem witness_EventsAreStoredOrCounted :
    let full (n : Nat) := withEvents live (List.replicate n ⟨1, .trackHeld 0 0, true⟩) 32
    ready.isOpen = false ∧ live.isOpen = true ∧ (∀ x ∈ (full 30).events.queue, x.isLost = false) ∧
      (full 30).events.queue.length < 31 ∧ (∀ x ∈ (full 31).events.queue, x.isLost = false) ∧
      (full 31).events.queue.length = 31 ∧
      ∀ n ∈ [65534, 65535],
        (withEvents live ((full 31).events.queue ++ [⟨32, .eventsLost n, true⟩]) 33).events.queue =
          (full 31).events.queue ++ [⟨32, .eventsLost n, true⟩] := by
  decide +kernel

/-- A well-formed queue whose numbers pass from 65535 to 0. -/
theorem wrappedQueue_wellFormed :
    EventUnit.WellFormed ⟨[⟨65535, .trackHeld 0 0, true⟩, ⟨0, .trackHeld 0 0, false⟩], 1⟩ := by
  refine ⟨by decide, ?_, ?_, ?_⟩
  · rintro (_ | _ | i) e h hl <;> simp_all
    subst h; simp [Entry.isLost] at hl
  · rintro (_ | _ | i) e h <;> simp_all
    all_goals subst h; rfl
  · rintro (_ | _ | i) (_ | _ | j) e f hij h g <;> simp_all
    all_goals subst h; simp

theorem witness_EventNumbersArePlaced :
    let u : EventUnit := ⟨[⟨40000, .trackHeld 0 0, true⟩, ⟨40001, .trackHeld 0 0, false⟩], 40002⟩
    ((40001 : Word16) - 40000).toNat < u.queue.length ∧
      (u.queue.length ≤ ((7232 : Word16) - 40000).toNat ∧ 1 ≤ ((40000 : Word16) - 7232).toNat ∧
        ((40000 : Word16) - 7232).toNat ≤ 32768) ∧
      (u.queue.length ≤ ((40002 : Word16) - 40000).toNat ∧ ¬((40000 : Word16) - 40002).toNat ≤ 32768) ∧
      ¬((40000 : Word16) - 7231).toNat ≤ 32768 ∧ 1 ≤ (1 : Word16).toNat ∧ (32768 : Word16).toNat ≤ 32768 := by
  decide +kernel

theorem witness_EventsAreAcknowledgedAndReplayed :
    let s := withEvents live [⟨1, .trackHeld 0 0, true⟩, ⟨2, .trackHeld 0 0, false⟩] 3
    s.isOpen = true ∧ s.Executes 0x06 9 ∧ s.events.place 1 = .held 0 ∧
      s.events.queue[0]? = some ⟨1, .trackHeld 0 0, true⟩ ∧
      (∀ e ∈ s.events.queue.take 1, e.isLost = false ∧ e.isLinkFault = false) ∧ s.events.place 2 = .held 1 ∧
      (let f := withFault ⟨0, 0, 1, 0⟩;
        f.Executes 0x06 9 ∧ f.events.place 1 = .held 0 ∧
          f.events.queue[0]? = some ⟨1, .linkFault ⟨0, 0, 1, 0⟩, true⟩ ∧
          (∃ e ∈ f.events.queue.take 1, e.isLinkFault = true) ∧ f.link.tallies ≠ ⟨0, 0, 0, 0⟩ ∧
          (∀ e ∈ f.events.queue.drop 1, e.isLost = false) ∧ (f.events.queue.drop 1).length < 31) ∧
      (let f := withEvents (withFault ⟨0, 0, 1, 0⟩) ((withFault ⟨0, 0, 1, 0⟩).events.queue ++ [⟨3, .eventsLost 1, true⟩]) 4;
        f.Executes 0x06 9 ∧ f.events.place 1 = .held 0 ∧ ∃ e ∈ f.events.queue.drop 1, e.isLost = true) ∧
      (let f := withEvents (withFault ⟨0, 0, 1, 0⟩) [⟨3, .eventsLost 1, true⟩] 4;
        f.Executes 0x06 9 ∧ f.events.place 3 = .held 0 ∧ f.events.queue[0]? = some ⟨3, .eventsLost 1, true⟩ ∧
          (∃ e ∈ f.events.queue.take 1, e.isLost = true) ∧ f.events.queue.drop 1 = [] ∧
          ∀ e ∈ f.events.queue.take 1, e.isLinkFault = false) ∧
      s.link.tallies = ⟨0, 0, 0, 0⟩ ∧
      s.events.queue[1]? = some ⟨2, .trackHeld 0 0, false⟩ ∧ s.events.place 3 = .beyond ∧ s.events.place 0 = .behind ∧
      s.Executes 0x07 9 := by
  repeat' (first | decide +kernel | apply due_of | apply State.Executes.mk | apply And.intro)

theorem witness_UnitsThatDoNotExistAreRefused :
    live.isOpen = true ∧ 64 ≤ (64 : Byte).toNat ∧ 8 ≤ (8 : Byte).toNat ∧ 4 ≤ (4 : Byte).toNat ∧ 16 ≤ (16 : Byte).toNat ∧
    1 ≤ [(⟨2, 0, 0, 1, 0⟩ : StepRecord)].length ∧
    live.Executes 0x21 9 ∧ live.Executes 0x22 9 ∧ live.Executes 0x23 9 ∧ live.Executes 0x24 9 ∧ live.Executes 0x30 9 ∧
    live.Executes 0x31 9 ∧ live.Executes 0x32 9 ∧ live.Executes 0x33 9 ∧ live.Executes 0x34 9 ∧ live.Executes 0x35 9 ∧
    live.Executes 0x36 9 ∧ live.Executes 0x37 9 ∧ live.Executes 0x40 9 ∧ live.Executes 0x41 9 ∧ live.Executes 0x42 9 ∧
    live.Executes 0x18 9 := by
  repeat' (first | decide +kernel | apply due_of | apply State.Executes.mk | apply And.intro)

/-- Every unit of the live part is as after reset. -/
theorem live_units :
    (∀ p : PageId, live.pages[p] = Page.cleared) ∧ (∀ t : TrackId, live.tracks[t] = Track.afterReset) ∧
      (∀ k : TriggerId, live.triggers[k] = Trigger.afterReset) ∧ ∀ l : LineId, live.lines[l] = Line.afterReset := by
  decide +kernel

theorem witness_StepsKeepWithinCapacity : live.WithinCapacity ∧ ∃ t, step live = .next t :=
  ⟨⟨by decide +kernel, by decide +kernel, by decide +kernel, by decide +kernel, by decide +kernel, by decide +kernel,
    ⟨by decide +kernel, (by intro i e h; cases h), (by intro i e h; cases h), (by intro i j e f _ h; cases h)⟩,
    by decide +kernel, by decide +kernel, by decide +kernel, by decide +kernel, by decide +kernel, by decide +kernel⟩,
    _, rfl⟩

theorem live_placed : live.Placed := by
  obtain ⟨hp, ht, _, _⟩ := live_units
  constructor <;> intros <;> simp_all [Page.cleared, Track.afterReset, Track.activePage, TrackState.context]

theorem witness_StepsKeepPagesPlaced : live.Placed ∧ ∃ t, step live = .next t := ⟨live_placed, _, rfl⟩

theorem witness_StepsKeepLinesHeld : live.Placed ∧ live.LinesHeld ∧ ∃ t, step live = .next t := by
  refine ⟨live_placed, ?_, _, rfl⟩
  obtain ⟨hp, ht, _, hl⟩ := live_units
  constructor <;> intros <;>
    simp_all [Page.cleared, Track.afterReset, Line.afterReset, Track.activePage, TrackState.context, TrackState.atRest,
      Line.restful]

theorem witness_StepsKeepTheSessionLaw :
    (ready.SessionLaw ∧ ∃ t, step ready = .next t) ∧ live.SessionLaw ∧ ∃ t, step live = .next t := by
  refine ⟨⟨⟨fun _ => ?_, by decide +kernel⟩, _, rfl⟩, ⟨fun h => absurd h (by decide +kernel), by decide +kernel⟩, _, rfl⟩
  constructor <;> decide +kernel

theorem witness_StepsKeepTheJournalAccount : live.journal.Accounts ∧ ∃ t, step live = .next t :=
  ⟨⟨by decide +kernel, (by intro i r q h; cases h), (by intro r h; cases h), (by intro g h; cases h), by decide +kernel⟩, _, rfl⟩

end Sys2Proof.Tests
end

section
namespace Sys2Proof.Machine

/-- A track after a change of one track: changed if it is that one. -/
theorem State.modifyTrack_get (s : State) (t u : TrackId) (f : Track → Track) :
    (s.modifyTrack t f).tracks[u] = if u = t then f s.tracks[u] else s.tracks[u] := by
  by_cases h : u = t
  · rw [h, if_pos rfl, s.modifyTrack_self]
  · rw [if_neg h, s.modifyTrack_other t u f (Ne.symm h)]

/-- A page after a change of one page: changed if it is that one. -/
theorem State.modifyPage_get (s : State) (p q : PageId) (f : Page → Page) :
    (s.modifyPage p f).pages[q] = if q = p then f s.pages[q] else s.pages[q] := by
  by_cases h : q = p
  · rw [h, if_pos rfl, s.modifyPage_self]
  · rw [if_neg h, s.modifyPage_other p q f (Ne.symm h)]

/-! ### What differs in pages, tracks and lines alone -/

/-- A state differs from another in its pages, tracks and lines alone. -/
def State.SameElsewhere (s s' : State) : Prop :=
  s' = { s with pages := s'.pages, tracks := s'.tracks, lines := s'.lines }

namespace State.SameElsewhere

theorem refl (s : State) : s.SameElsewhere s := rfl

theorem trans {a b c : State} (hab : a.SameElsewhere b) (hbc : b.SameElsewhere c) : a.SameElsewhere c := by
  unfold SameElsewhere at hab hbc ⊢
  rw [hbc, hab]

theorem isOpen {s s' : State} (h : s.SameElsewhere s') : s'.isOpen = s.isOpen := by
  rw [h]; rfl

theorem modifyTrack (s : State) (t : TrackId) (f : Track → Track) : s.SameElsewhere (s.modifyTrack t f) := rfl
theorem modifyPage (s : State) (p : PageId) (f : Page → Page) : s.SameElsewhere (s.modifyPage p f) := rfl
theorem settle (s : State) (t : TrackId) (st : TrackState) : s.SameElsewhere (s.settle t st) := rfl
theorem applyRest (s : State) (t : TrackId) : s.SameElsewhere (s.applyRest t) := rfl

theorem applyPending (s : State) (t : TrackId) : s.SameElsewhere (s.applyPending t) := by
  unfold State.applyPending
  split <;> rfl

theorem leavePages (s : State) (ps : List PageId) : s.SameElsewhere (s.leavePages ps) := by
  induction ps generalizing s with
  | nil => exact refl s
  | cons p ps ih => exact (modifyPage s p Page.leave).trans (ih _)

/-- With no session open a retirement queues no event. -/
theorem abortPage {s : State} (h : s.isOpen = false) (t : TrackId) : s.SameElsewhere (s.abortPage t) := by
  have hretire (p : Playback) : s.retire t p .aborted = s.modifyPage p.page Page.leave := by
    have hclosed : (s.modifyPage p.page Page.leave).isOpen = false := h
    unfold State.retire State.queueEventIf
    split
    · exact State.queueEvent_closed hclosed _
    · rfl
  unfold State.abortPage
  split
  · rw [hretire]; rfl
  · rw [hretire]; rfl
  · exact refl s

theorem abortTrack {s : State} (h : s.isOpen = false) (t : TrackId) : s.SameElsewhere (s.abortTrack t) :=
  have hp := applyPending s t
  (hp.trans (abortPage (hp.isOpen.trans h) t)).trans
    ((settle _ t .idle).trans (applyRest _ t))

theorem endTrack {s : State} (h : s.isOpen = false) (t : TrackId) : s.SameElsewhere (s.endTrack t) := by
  have hended : s.SameElsewhere ((s.abortTrack t).flush t) :=
    ((abortTrack h t).trans (leavePages _ _)).trans (modifyTrack _ t _)
  unfold State.endTrack
  split
  · exact refl s
  all_goals exact hended

theorem endTracks {s : State} (h : s.isOpen = false) (ts : List TrackId) :
    s.SameElsewhere (ts.foldl State.endTrack s) := by
  induction ts generalizing s with
  | nil => exact refl s
  | cons t ts ih =>
    have ht := endTrack h t
    exact ht.trans (ih (ht.isOpen.trans h))

end State.SameElsewhere

/-! ### What the end of a session does to a track and to a line -/

/-- A track that a session end finds: a pending configuration applied, IDLE, nothing queued, held or asked for (R55, R82). A
DISABLED track stays as it is. -/
def Track.ended (tr : Track) : Track :=
  if tr.state = .disabled then tr
  else
    { tr with
      state := .idle, queue := [], hold := false, looping := false, stopRequest := false, pendingConfig := none
      policy := (tr.pendingConfig.map PendingConfig.policy).getD tr.policy
      reportStarted := (tr.pendingConfig.map PendingConfig.reportStarted).getD tr.reportStarted
      reportRetired := (tr.pendingConfig.map PendingConfig.reportRetired).getD tr.reportRetired }

/-- The rest level of a line of a track's group once its pending configuration, if any, is applied (R55). -/
def Track.restAfter (tr : Track) (l : LineId) (rest : Bool) : Bool :=
  (tr.pendingConfig.map fun q => q.rest.getLsbD l).getD rest

/-- What the end of a track's session does to a line: a line of the group goes to its rest level (R55, R82). -/
def Track.endLine (tr : Track) (l : LineId) (ln : Line) : Line :=
  if tr.state ≠ .disabled ∧ tr.group.getLsbD l = true then { ln with rest := tr.restAfter l ln.rest }.toRest else ln

theorem Track.ended_of_disabled {tr : Track} (h : tr.state = .disabled) : tr.ended = tr := if_pos h

theorem State.applyPending_track (s : State) (t u : TrackId) :
    (s.applyPending t).tracks[u] = if u = t then { s.tracks[u] with
      policy := (s.tracks[u].pendingConfig.map PendingConfig.policy).getD s.tracks[u].policy
      reportStarted := (s.tracks[u].pendingConfig.map PendingConfig.reportStarted).getD s.tracks[u].reportStarted
      reportRetired := (s.tracks[u].pendingConfig.map PendingConfig.reportRetired).getD s.tracks[u].reportRetired
      pendingConfig := none } else s.tracks[u] := by
  by_cases hu : u = t
  · subst hu
    rw [if_pos rfl]
    unfold State.applyPending
    split
    · rename_i h
      simp only [h, Option.map_none, Option.getD_none]
      exact congrArg (fun c => { s.tracks[u] with pendingConfig := c }) h
    · rename_i q h
      rw [State.modifyTrack_self, State.storeRest_tracks, h]
      rfl
  · rw [if_neg hu]
    unfold State.applyPending
    split
    · rfl
    · rw [State.modifyTrack_get, if_neg hu]; simp

theorem State.applyPending_line (s : State) (t : TrackId) (l : LineId) :
    (s.applyPending t).lines[l] =
      if s.tracks[t].group.getLsbD l then { s.lines[l] with rest := s.tracks[t].restAfter l s.lines[l].rest }
      else s.lines[l] := by
  unfold State.applyPending Track.restAfter
  split
  · rename_i h
    rw [h]
    exact (ite_self _).symm
  · rename_i q h
    rw [State.modifyTrack_lines, State.storeRest, State.mapLines_get, h]
    rfl

@[simp] theorem State.applyPending_group (s : State) (t u : TrackId) :
    (s.applyPending t).tracks[u].group = s.tracks[u].group := by
  rw [State.applyPending_track]; split <;> rfl

@[simp] theorem State.leavePages_tracks (s : State) (ps : List PageId) : (s.leavePages ps).tracks = s.tracks := by
  induction ps generalizing s with
  | nil => rfl
  | cons p ps ih => exact (ih _).trans (State.modifyPage_tracks s p _)

@[simp] theorem State.leavePages_lines (s : State) (ps : List PageId) : (s.leavePages ps).lines = s.lines := by
  rw [State.SameElsewhere.leavePages s ps]
  induction ps generalizing s with
  | nil => rfl
  | cons p ps ih => exact (ih _).trans (State.modifyPage_lines s p _)

@[simp] theorem State.abortPage_tracks (s : State) (t : TrackId) : (s.abortPage t).tracks = s.tracks := by
  unfold State.abortPage; split <;> simp

@[simp] theorem State.abortPage_lines (s : State) (t : TrackId) : (s.abortPage t).lines = s.lines := by
  unfold State.abortPage; split <;> simp

theorem State.settle_get (s : State) (t u : TrackId) (st : TrackState) :
    (s.settle t st).tracks[u] = if u = t then
      { s.tracks[u] with state := st, hold := false, looping := false, stopRequest := false, pendingConfig := none }
      else s.tracks[u] := State.modifyTrack_get s t u _

theorem State.flush_get (s : State) (t u : TrackId) :
    (s.flush t).tracks[u] = if u = t then { s.tracks[u] with queue := [] } else s.tracks[u] := by
  rw [State.flush, State.modifyTrack_get, State.leavePages_tracks]

theorem State.applyRest_line (s : State) (t : TrackId) (l : LineId) :
    (s.applyRest t).lines[l] = if s.tracks[t].group.getLsbD l then s.lines[l].toRest else s.lines[l] :=
  State.mapLines_get s _ _ l

theorem State.endTrack_of_disabled {s : State} {t : TrackId} (h : s.tracks[t].state = .disabled) : s.endTrack t = s := by
  rw [State.endTrack, h]

theorem State.endTrack_of_enabled {s : State} {t : TrackId} (h : s.tracks[t].state ≠ .disabled) :
    s.endTrack t = (s.abortTrack t).flush t := by
  unfold State.endTrack
  split
  · contradiction
  all_goals rfl

theorem State.endTrack_track (s : State) (t u : TrackId) :
    (s.endTrack t).tracks[u] = if u = t then s.tracks[u].ended else s.tracks[u] := by
  by_cases hd : s.tracks[t].state = .disabled
  · rw [State.endTrack_of_disabled hd]
    split
    · rename_i h; rw [h, Track.ended_of_disabled hd]
    · rfl
  · rw [State.endTrack_of_enabled hd, State.flush_get, State.abortTrack, State.applyRest_tracks, State.settle_get,
      State.abortPage_tracks, State.applyPending_track]
    split
    · rename_i h; subst h; simp only [Track.ended, if_neg hd]
    · rfl

theorem State.endTrack_line (s : State) (t : TrackId) (l : LineId) :
    (s.endTrack t).lines[l] = s.tracks[t].endLine l s.lines[l] := by
  by_cases hd : s.tracks[t].state = .disabled
  · rw [State.endTrack_of_disabled hd, Track.endLine, if_neg (fun h => h.1 hd)]
  · rw [State.endTrack_of_enabled hd, State.flush, State.modifyTrack_lines, State.leavePages_lines, State.abortTrack,
      State.applyRest_line, State.settle_lines, State.abortPage_lines, State.settle_get, if_pos rfl,
      State.abortPage_tracks, State.applyPending_group, State.applyPending_line, Track.endLine]
    by_cases hg : s.tracks[t].group.getLsbD l = true
    · simp only [if_pos hg, if_pos (And.intro hd hg)]
    · rw [if_neg hg, if_neg hg, if_neg (fun h => hg h.2)]

/-! ### All tracks, one after another -/

theorem State.endTracks_track (ts : List TrackId) (hn : ts.Nodup) (s : State) (u : TrackId) :
    (ts.foldl State.endTrack s).tracks[u] = if u ∈ ts then s.tracks[u].ended else s.tracks[u] := by
  induction ts generalizing s with
  | nil => rfl
  | cons t ts ih =>
    obtain ⟨ht, hts⟩ := List.nodup_cons.mp hn
    rw [List.foldl_cons, ih hts, State.endTrack_track]
    by_cases hu : u = t
    · subst hu; simp [ht]
    · simp [hu]

theorem State.endTracks_line (ts : List TrackId) (hn : ts.Nodup) (s : State) (l : LineId) :
    (ts.foldl State.endTrack s).lines[l] = ts.foldl (fun ln u => s.tracks[u].endLine l ln) s.lines[l] := by
  induction ts generalizing s with
  | nil => rfl
  | cons t ts ih =>
    obtain ⟨ht, hts⟩ := List.nodup_cons.mp hn
    rw [List.foldl_cons, List.foldl_cons, ih hts, State.endTrack_line]
    refine List.foldl_ext _ _ _ fun ln u hu => ?_
    rw [State.endTrack_track, if_neg (by rintro rfl; exact ht hu)]

/-- An output at its rest level is restful, a line of another role always. -/
theorem Line.toRest_restful (ln : Line) : ln.toRest.restful := by
  obtain ⟨rest, role⟩ := ln
  cases role <;> simp [Line.toRest, Line.drive, Line.restful]

/-- A line of an enabled track's group after that track's end: its rest level is the pending one, if any, and an output is
driven to it (R29, R55). -/
theorem Track.endLine_of_group {tr : Track} {l : LineId} (hd : tr.state ≠ .disabled) (hg : tr.group.getLsbD l = true)
    (ln : Line) : tr.endLine l ln = { ln with rest := tr.restAfter l ln.rest }.toRest := if_pos ⟨hd, hg⟩

theorem Track.endLine_restful (tr : Track) (l : LineId) {ln : Line} (h : ln.restful) : (tr.endLine l ln).restful := by
  unfold Track.endLine
  split
  · exact Line.toRest_restful _
  · exact h

theorem Track.endLines_restful (tracks : TrackId → Track) (l : LineId) (ts : List TrackId) (ln : Line)
    (h : ln.restful ∨ ∃ u ∈ ts, (tracks u).state ≠ .disabled ∧ (tracks u).group.getLsbD l = true) :
    (ts.foldl (fun ln u => (tracks u).endLine l ln) ln).restful := by
  induction ts generalizing ln with
  | nil => exact h.resolve_right (by simp)
  | cons t ts ih =>
    refine ih _ ?_
    rcases h with h | ⟨u, hu, hd, hg⟩
    · exact .inl (Track.endLine_restful _ l h)
    · rcases List.mem_cons.mp hu with rfl | hu
      · left
        show ((tracks u).endLine l ln).restful
        rw [Track.endLine_of_group hd hg]
        exact Line.toRest_restful _
      · exact .inr ⟨u, hu, hd, hg⟩

/-- A fold to which one element alone contributes is that element's contribution. -/
theorem foldl_eq_of_only {α β : Type} (f : β → α → β) (u : α) (ts : List α) (hn : ts.Nodup) (hu : u ∈ ts)
    (h : ∀ v ∈ ts, v ≠ u → ∀ x, f x v = x) (x : β) : ts.foldl f x = f x u := by
  have hid (vs : List α) (hvs : ∀ v ∈ vs, ∀ x, f x v = x) (x : β) : vs.foldl f x = x := by
    induction vs generalizing x with
    | nil => rfl
    | cons v vs ih => rw [List.foldl_cons, hvs v (by simp), ih fun w hw => hvs w (by simp [hw])]
  obtain ⟨front, back, rfl⟩ := List.append_of_mem hu
  have hout (v : α) (hv : v ∈ front ++ back) : v ≠ u := by
    rintro rfl
    exact (List.nodup_middle.mp hn).notMem hv
  rw [List.foldl_append, List.foldl_cons, hid front fun v hv => h v (by simp [hv]) (hout v (by simp [hv])),
    hid back fun v hv => h v (by simp [hv]) (hout v (by simp [hv]))]

/-! ### The session end -/

/-- The state whose tracks a session end then ends: closed, the silence timer stopped (R180; log entry 16). -/
def State.closing (s : State) : State := { s with session := { s.session with status := .closed, silence := none } }

theorem State.endSession_tracks (s : State) : s.endSession.tracks = (allTracks.foldl State.endTrack s.closing).tracks := by
  simp only [State.endSession, State.closing]

theorem State.endSession_lines (s : State) : s.endSession.lines = (allTracks.foldl State.endTrack s.closing).lines := by
  simp only [State.endSession, State.closing]

/-- What a session end leaves: the named fields at their values, the tracks and lines as the tracks' ends leave them. -/
theorem State.endSession_frame (s : State) :
    s.endSession = { s with
      session := { s.session with status := .closed, silence := none }
      pages := Vector.replicate 64 Page.cleared
      tracks := s.endSession.tracks, lines := s.endSession.lines
      triggers := s.triggers.map fun k => { k with latch := .disarmed }
      events := { s.events with queue := [] }
      journal := { s.journal with waiting := none }
      link := { s.link with cache := [] } } := by
  have hsame := SameElsewhere.endTracks (s := s.closing) rfl allTracks
  rw [State.endSession_tracks, State.endSession_lines]
  simp only [State.endSession]
  rw [← State.closing, hsame]
  simp only [State.closing]

theorem State.endSession_track (s : State) (u : TrackId) : s.endSession.tracks[u] = s.tracks[u].ended := by
  rw [State.endSession_tracks, State.endTracks_track allTracks (List.nodup_finRange 8), if_pos (show u ∈ allTracks from List.mem_finRange u)]
  rfl

theorem State.endSession_line (s : State) (l : LineId) :
    s.endSession.lines[l] = allTracks.foldl (fun ln u => s.tracks[u].endLine l ln) s.lines[l] := by
  rw [State.endSession_lines, State.endTracks_line allTracks (List.nodup_finRange 8)]
  rfl

/-- A line that no track but one holds is left as that track's end leaves it. -/
theorem State.endSession_line_of_only (s : State) (u : TrackId) (l : LineId)
    (h : ∀ v : TrackId, v ≠ u → s.tracks[v].state ≠ .disabled → s.tracks[v].group.getLsbD l = false) :
    s.endSession.lines[l] = s.tracks[u].endLine l s.lines[l] := by
  rw [State.endSession_line]
  refine foldl_eq_of_only _ u _ (List.nodup_finRange 8) (List.mem_finRange u) (fun v _ hv ln => ?_) _
  refine if_neg fun ⟨hd, hg⟩ => ?_
  rw [h v hv hd] at hg
  exact absurd hg (by decide)

theorem State.endSession_page (s : State) (p : PageId) : s.endSession.pages[p] = Page.cleared := by
  rw [State.endSession_frame]; simp

theorem State.endSession_trigger (s : State) (k : TriggerId) :
    s.endSession.triggers[k] = { s.triggers[k] with latch := .disarmed } := by
  rw [State.endSession_frame]; simp

theorem Track.ended_spec {tr : Track} (h : tr.state ≠ .disabled) :
    tr.ended = { tr with
      state := .idle, queue := [], hold := false, looping := false, stopRequest := false, pendingConfig := none
      policy := (tr.pendingConfig.map PendingConfig.policy).getD tr.policy
      reportStarted := (tr.pendingConfig.map PendingConfig.reportStarted).getD tr.reportStarted
      reportRetired := (tr.pendingConfig.map PendingConfig.reportRetired).getD tr.reportRetired } := if_neg h

theorem Line.toRest_rest (ln : Line) : ln.toRest.rest = ln.rest := by
  obtain ⟨rest, role⟩ := ln
  cases role <;> rfl

theorem Line.toRest_output {ln : Line} {driven : Bool} (h : ln.role = .output driven) :
    ln.toRest = ⟨ln.rest, .output ln.rest⟩ := by
  simp [Line.toRest, Line.drive, h]

theorem Line.toRest_other {ln : Line} (h : ∀ driven, ln.role ≠ .output driven) : ln.toRest = ln := by
  obtain ⟨rest, role⟩ := ln
  cases role with
  | output driven => exact absurd rfl (h driven)
  | unused => rfl
  | input filter capture sensed candidate => rfl

/-- Settles O8: the tracks' ends, which are the fold of `endTrack`, are read track by track and line by line. -/
theorem sessionEndQuietsThePart : Obligations.SessionEndQuietsThePart := by
  unfold Obligations.SessionEndQuietsThePart
  intro s t
  have hpages : t.pages = Vector.replicate 64 Page.cleared := by rw [show t = _ from s.endSession_frame]
  have htriggers : t.triggers = s.triggers.map fun k => { k with latch := .disarmed } := by
    rw [show t = _ from s.endSession_frame]
  refine ⟨s.endSession_frame.trans ?_, s.endSession_page, ?_, ?_, ?_, ?_, ?_, ?_, ?_⟩
  · rw [hpages, htriggers]
  · rw [State.freePages, hpages]; decide +kernel
  · rw [State.freeSlots, State.usedSlots, hpages]; decide +kernel
  · intro k
    rw [State.endSession_trigger]
    exact ⟨rfl, rfl⟩
  · intro u hu
    rw [State.endSession_track, Track.ended_of_disabled hu]
  · intro u hu
    rw [State.endSession_track, Track.ended_spec hu]
    refine ⟨rfl, rfl, rfl, rfl, rfl, rfl, rfl, fun hq => ?_, fun q hq => ?_, fun l hg => ?_⟩
    · rw [hq]; exact ⟨rfl, rfl, rfl⟩
    · rw [hq]
      refine ⟨rfl, rfl, rfl, fun l hg hv => ?_⟩
      rw [State.endSession_line_of_only s u l fun v hvu _ => hv v hvu, Track.endLine_of_group hu hg, Line.toRest_rest,
        Track.restAfter, hq]
      rfl
    · rw [State.endSession_line]
      exact Track.endLines_restful (fun v => s.tracks[v]) l _ _ (.inr ⟨u, List.mem_finRange u, hu, hg⟩)
  · intro l hl
    rw [State.endSession_line_of_only s 0 l fun v _ hd => hl v hd]
    refine if_neg fun ⟨hd, hg⟩ => ?_
    rw [hl 0 hd] at hg
    exact absurd hg (by decide)
  · intro u l hu hg hv
    rw [State.endSession_line_of_only s u l hv, Track.endLine_of_group hu hg]
    exact ⟨fun driven hr => Line.toRest_output hr, fun hr => Line.toRest_other hr⟩

end Sys2Proof.Machine
end

section
/-! The reset state (R184): its stated values, and the laws it obeys. -/
namespace Sys2Proof.Machine

theorem State.reset_page (p : PageId) : State.reset.pages[p] = Page.cleared := by simp [State.reset]
theorem State.reset_track (t : TrackId) : State.reset.tracks[t] = Track.afterReset := by simp [State.reset]
theorem State.reset_trigger (k : TriggerId) : State.reset.triggers[k] = Trigger.afterReset := by simp [State.reset]
theorem State.reset_line (l : LineId) : State.reset.lines[l] = Line.afterReset := by simp [State.reset]

/-- Settles O4: the vectors' entries one by one, the counts by evaluation. -/
theorem resetLeavesTheStatedValues : Obligations.ResetLeavesTheStatedValues := by
  unfold Obligations.ResetLeavesTheStatedValues
  intro s
  have hpool : s.freePages = 64 ∧ s.freeSlots = 1024 := by decide +kernel
  refine ⟨fun p => ?_, hpool.1, hpool.2, State.reset_track, State.reset_trigger, fun l => ?_, rfl, rfl, rfl, rfl, rfl, rfl,
    rfl, rfl, rfl, rfl, rfl, rfl⟩
  · rw [State.reset_page]; exact ⟨rfl, rfl⟩
  · rw [State.pinOut, State.reset_line]; exact ⟨rfl, rfl⟩

/-- An event unit that holds no entry is well formed, wherever its counter stands. -/
theorem EventUnit.WellFormed.of_empty {u : EventUnit} (h : u.queue = []) : u.WellFormed := by
  constructor <;> simp [h]

theorem State.reset_withinCapacity : State.reset.WithinCapacity where
  divider := by decide +kernel
  steps p := by rw [State.reset_page]; decide
  store := by decide +kernel
  freeEmpty p _ := by rw [State.reset_page]; rfl
  queues t := by rw [State.reset_track]; decide
  records := by decide
  events := .of_empty rfl
  closedEvents _ := rfl
  fifo := by decide
  buffer := by decide
  slots := by decide
  cache := by decide
  tallies := by decide

theorem State.reset_placed : State.reset.Placed where
  queueOnce t := by rw [State.reset_track]; exact List.nodup_nil
  queueOwned t p hp := by rw [State.reset_track] at hp; cases hp
  activeOwned t p hp := by rw [State.reset_track] at hp; cases hp
  queuedStands p hp := by rw [State.reset_page] at hp; cases hp
  activeStands p hp := by rw [State.reset_page] at hp; cases hp
  unowned p _ _ := by rw [State.reset_page]; rfl
  disabledEmpty t _ := by rw [State.reset_track]; rfl
  armedQueue t a ha := by rw [State.reset_track] at ha; cases ha
  releaseQueue t r hr := by rw [State.reset_track] at hr; cases hr

theorem State.reset_linesHeld : State.reset.LinesHeld where
  disjoint t u _ := by rw [State.reset_track, State.reset_track]; decide
  outputs t l hl := by rw [State.reset_track] at hl; simp [Track.afterReset] at hl
  disabled t _ := by rw [State.reset_track]; rfl
  footprints p hp := by rw [State.reset_page] at hp; rcases hp with hp | hp | hp <;> cases hp
  queuedFit t p hp := by rw [State.reset_track] at hp; cases hp
  activeFit t p hp := by rw [State.reset_track] at hp; cases hp
  pulsesFit t c e hc := by rw [State.reset_track] at hc; cases hc
  staticRest l _ driven hd := by rw [State.reset_line] at hd; cases hd
  quietRest t l ht := by rw [State.reset_track] at ht; cases ht

theorem State.reset_sessionLaw : State.reset.SessionLaw where
  closedQuiet _ :=
    { tracks := fun t => by rw [State.reset_track]; exact .inr rfl
      triggers := fun k => by rw [State.reset_trigger]; rfl
      pages := fun p => by rw [State.reset_page]; rfl
      events := rfl, cache := rfl, awaiting := rfl, waiting := rfl }
  silence := rfl

theorem Journal.afterReset_accounts : Journal.afterReset.Accounts where
  capacity := by decide
  chain i r q h := by cases h
  newest r h := by cases h
  gapEnds g h := by cases h
  gapFull h := by cases h

/-- Settles O55: each law on the reset state. -/
theorem resetObeysEveryLaw : Obligations.ResetObeysEveryLaw :=
  ⟨State.reset_withinCapacity, State.reset_placed, State.reset_linesHeld, State.reset_sessionLaw,
    Journal.afterReset_accounts⟩

end Sys2Proof.Machine
end

section
/-! What every step keeps, proved once: a property of states that the named operations keep is kept by every step (the link
unit's loops, the timed commands, the rows of a sample, and one row after another of the table). -/
namespace Sys2Proof.Machine

/-- A property of states that the operations a step is made of keep. Where an operation stands under a check, the check is
given: the dispatcher's of a free place and of the session (R167, R168), the FIFO's of a free byte (R161). -/
structure State.Invariant (P : State → Prop) : Prop where
  pending : ∀ s q, P s → P { s with pending := q }
  choices : ∀ s n, P s → P { s with choices := n }
  advance : ∀ s n, P s → P (s.advance n)
  assemble : ∀ s fifo a, fifo.length ≤ s.link.fifo.length → P s → P (s.assemble fifo a)
  linkFault : ∀ s k, P s → P (s.linkFault k)
  restartSilence : ∀ s, P s → P s.restartSilence
  byteDropped : ∀ s, P s → P { s with link := { s.link with dropping := true, sinceByte := 0 } }
  byteTaken : ∀ s b, s.link.fifo.length < Config.fifoBytes → P s →
    P { s with link := { s.link with fifo := s.link.fifo ++ [b], dropping := false, sinceByte := 0 } }
  pushReply : ∀ s r, s.buffered < Config.bufferReplies → P s → P (s.pushReply r)
  cacheReply : ∀ s r, P s → P (s.cacheReply r)
  execute : ∀ s f i, i.frame = some f ∨ f.command = some i → s.isOpen = true ∨ admittedClosed f.kind = true →
    s.buffered < Config.bufferReplies → P s → P (s.execute f (ownerOf i))
  send : ∀ s f, P s → P (s.send f)
  noticeTaken : ∀ s rest, P s → P { s with link := { s.link with notices := rest } }
  replyTaken : ∀ s o rest, s.link.replies = o :: rest → P s → P { s with link := { s.link with replies := rest } }
  eventTaken : ∀ s e queue, takeUnsent s.events.queue = some (e, queue) → P s →
    P { s with events := { s.events with queue := queue } }
  resetReplyTaken : ∀ s, P s → P { s with resetPart := .replyTaken }
  loseLink : ∀ s, P s → P s.loseLink
  beginReset : ∀ s cause, P s → P (s.beginReset cause)
  endReset : ∀ s straps, P s → P (s.endReset straps)
  endStartUp : ∀ s, P s → P s.endStartUp
  freshSample : ∀ s, P s → P { s with sample := Sample.fresh }
  showLevel : ∀ s l level, P s → P (s.showLevel l level)
  joinSample : ∀ s l, P s → P (s.joinSample l)
  acceptEdge : ∀ s l, P s → P (s.acceptEdge l)
  pulse : ∀ s, P s → P s.pulse
  missPulse : ∀ s, P s → P s.missPulse
  discardFiring : ∀ s k, P s → P (s.discardFiring k)
  endGate : ∀ s t, P s → P (s.endGate t)
  resumeReleased : ∀ s t, P s → P (s.resumeReleased t)
  expireRead : ∀ s, P s → P s.expireRead
  startEffect : ∀ s t, P s → P (s.startEffect t)
  releaseEffect : ∀ s t, P s → P (s.releaseEffect t)
  trackActions : ∀ s t, P s → P (s.trackActions t)

/-- A fold keeps what each of its steps keeps. -/
theorem foldl_keeps {α β : Type} {P : β → Prop} {f : β → α → β} (hf : ∀ b a, P b → P (f b a)) (l : List α) (b : β) (h : P b) :
    P (l.foldl f b) := by
  induction l generalizing b with
  | nil => exact h
  | cons a l ih => exact ih _ (hf b a h)

/-- The end of a sample keeps what the acceptance of an edge keeps. -/
theorem State.endSample_keeps {P : State → Prop} (fresh : ∀ s, P s → P { s with sample := Sample.fresh })
    (accept : ∀ s l, P s → P (s.acceptEdge l)) {s : State} (h : P s) : P s.endSample :=
  foldl_keeps accept _ _ (fresh s h)

/-- Who handles a frame at step 6 of R168: the owner of the request that the frame carries, or a plain refusal of a mode that
is none of the table's. -/
def OwnsFrame (f : Frame) (own : State → State × Answer) : Prop :=
  (∃ i, (i.frame = some f ∨ f.command = some i) ∧ own = ownerOf i) ∨
    ∃ fields : State → List Byte, own = fun s => (s, .say .badValue (fields s))

theorem ownsFrame_ownerOf {f : Frame} {i : Instr} (h : i.frame = some f) : OwnsFrame f (ownerOf i) :=
  .inl ⟨i, .inl h, rfl⟩

theorem ownsFrame_frameOwner (f : Frame) : OwnsFrame f (frameOwner f) := by
  unfold frameOwner
  split
  · rename_i i h
    exact .inl ⟨i, .inr h, rfl⟩
  · split
    · exact .inr ⟨fun s => s.startRefusal (f.payload.headD 0), rfl⟩
    · exact .inr ⟨fun _ => zeros 8, rfl⟩

theorem State.canTake_buffered {s : State} (h : s.canTake = true) : s.buffered < Config.bufferReplies := by
  simp only [State.canTake, Bool.and_eq_true, decide_eq_true_eq] at h
  exact h.2

namespace State.Invariant

variable {P : State → Prop} (inv : State.Invariant P)
include inv

/-! ### The link unit -/

theorem execute_owner {s : State} {f : Frame} {own : State → State × Answer} (ho : OwnsFrame f own)
    (ha : s.isOpen = true ∨ admittedClosed f.kind = true) (hb : s.buffered < Config.bufferReplies) (h : P s) :
    P (s.execute f own) := by
  rcases ho with ⟨i, hi, rfl⟩ | ⟨fields, rfl⟩
  · exact inv.execute s f i hi ha hb h
  · refine inv.pushReply _ _ ?_ (inv.cacheReply _ _ h)
    unfold State.cacheReply
    split <;> exact hb

/-- The dispatcher, by the checks of R168. -/
theorem dispatch {s : State} {f : Frame} {own : State → State × Answer} (ho : OwnsFrame f own)
    (hb : s.buffered < Config.bufferReplies) (h : P s) : P (s.dispatch f own) := by
  have reply (r : Reply) : P (s.pushReply r) := inv.pushReply s r hb h
  unfold State.dispatch
  split
  · exact reply _
  split
  · exact reply _
  split
  · exact reply _
  rename_i hadmitted
  have ha : s.isOpen = true ∨ admittedClosed f.kind = true := by
    cases ho : s.isOpen <;> simp_all
  have exec := inv.execute_owner ho ha hb h
  split
  · exact exec
  split
  · exact reply _
  split
  · exact reply _
  · exact exec

theorem pumpFor (n : Nat) {s : State} (h : P s) : P (State.pumpFor n s) := by
  induction n generalizing s with
  | zero => exact h
  | succ n ih =>
    unfold State.pumpFor
    split
    · split
      · exact h
      · rename_i b rest hf
        split
        · exact ih (inv.assemble s _ _ (by simp [hf]) h)
        · exact ih (inv.assemble s _ _ (by simp [hf]) h)
    · split
      · rename_i sync len rest hf
        split
        · exact ih (inv.assemble s _ _ (by simp [hf]) h)
        · exact ih (inv.linkFault _ _ (inv.assemble s _ _ (by simp [hf]; omega) h))
      · exact h
    · split
      · rename_i sync len rest hf
        split
        · exact h
        split
        · exact ih (inv.restartSilence _ (inv.assemble s _ _ (by simp [hf]) h))
        · exact ih (inv.linkFault _ _ (inv.assemble s _ _ (by simp [hf]) h))
      · exact h
    · split
      · rename_i sync len rest hf
        split
        · rename_i htake
          exact ih (inv.dispatch (ownsFrame_frameOwner _) (State.canTake_buffered htake :)
            (inv.assemble s _ _ (by simp [hf]; omega) h))
        · exact h
      · exact h

theorem pump {s : State} (h : P s) : P s.pump := inv.pumpFor _ h

theorem receiveByte (b : Byte) {s : State} (h : P s) : P (s.receiveByte b) := by
  unfold State.receiveByte
  split
  · exact h
  split
  · dsimp only
    split
    · exact inv.byteDropped s h
    · exact inv.linkFault _ _ (inv.byteDropped s h)
  · rename_i hfull
    exact inv.pump (inv.byteTaken s b (Nat.lt_of_not_le hfull) h)

theorem gapExpired {s : State} (h : P s) : P s.gapExpired :=
  inv.linkFault _ _ (inv.assemble s [] .hunt (Nat.zero_le _) h)

theorem frameArrives {s : State} {f : Frame} {own : State → State × Answer} (ho : OwnsFrame f own) (h : P s) :
    P (s.frameArrives f own) := by
  unfold State.frameArrives
  split
  · exact h
  split
  · rename_i htake
    have hb : s.restartSilence.buffered < Config.bufferReplies := by
      rw [State.buffered, State.restartSilence_link]
      exact State.canTake_buffered ((State.takesAtOnce_iff s).mp htake).1
    exact inv.dispatch ho hb (inv.restartSilence s h)
  · exact foldl_keeps (fun s b => inv.receiveByte b) _ s h

/-- A request row, handled by its owner. -/
theorem request (i : Instr) {s : State} (h : P s) : P (s.request i (ownerOf i)) := by
  unfold State.request
  split
  · exact h
  · rename_i f hf
    exact inv.frameArrives (ownsFrame_ownerOf hf) h

theorem replyTakenAct {s : State} (o : Outgoing) (h : P s) : P (State.replyTaken s o) := by
  cases o with
  | immediate r =>
    rw [State.replyTaken]
    split
    · exact inv.resetReplyTaken s h
    · exact inv.pump h
  | deferred r cacheable =>
    rw [State.replyTaken]
    split
    · exact inv.cacheReply s r h
    · exact h

theorem transmit {s : State} (h : P s) : P s.transmit := by
  unfold State.transmit
  split
  · exact h
  split
  · exact inv.send _ _ (inv.noticeTaken s _ h)
  · rename_i o rest _ hr
    exact inv.replyTakenAct o (inv.send _ _ (inv.replyTaken s o rest hr h))
  · split
    · exact h
    · rename_i e queue hq
      exact inv.send _ _ (inv.eventTaken s e queue hq h)

/-! ### Timed commands and samples -/

/-- A timed command keeps what its action keeps. -/
theorem atDue {s : State} (c : Instr) {act : State → State} (hact : ∀ s, P s → P (act s)) (h : P s) : P (s.atDue c act) := by
  unfold State.atDue
  split
  · exact h
  · exact hact s h
  · split
    · exact hact _ (inv.advance s _ h)
    · exact h

theorem endSample {s : State} (h : P s) : P s.endSample := State.endSample_keeps inv.freshSample inv.acceptEdge h

theorem endSampleAtLastRow {s : State} (h : P s) : P s.endSampleAtLastRow := by
  unfold State.endSampleAtLastRow
  split
  · exact h
  · exact inv.endSample h

theorem samplePin (l : LineId) (level : Bool) {s : State} (h : P s) : P (s.samplePin l level) := by
  unfold State.samplePin
  apply inv.endSampleAtLastRow
  apply inv.showLevel
  split
  · exact inv.endSample h
  · exact h

theorem acceptInSample (l : LineId) {s : State} (h : P s) : P (s.acceptInSample l) :=
  inv.endSampleAtLastRow (inv.joinSample s l h)

/-! ### The rows of the table, and the step -/

/-- Every row of the table: those that are no requests are operations of the invariant, at their moment or under their check;
each of the rest is its request, handled by its owner. -/
theorem exec {s t : State} (i : Instr) (h : P s) (ht : exec i s = .next t) : P t := by
  cases i with
  | badKindFrame tag kind payload => cases ht; exact inv.frameArrives (ownsFrame_frameOwner _) h
  | byteReceived byte => cases ht; exact inv.receiveByte byte h
  | gapTimeout => cases ht; exact inv.atDue _ (fun s => inv.gapExpired) h
  | keepaliveExpiry => cases ht; exact inv.atDue _ inv.loseLink h
  | transmitNextFrame => cases ht; exact inv.atDue _ (fun s => inv.transmit) h
  | resetPower => cases ht; exact inv.beginReset s _ h
  | resetPin => cases ht; exact inv.beginReset s _ h
  | resetRequest => cases ht; exact inv.atDue _ (fun s => inv.beginReset s _) h
  | startUpEnd => cases ht; exact inv.atDue _ inv.endStartUp h
  | inputTransition line level => cases ht; exact inv.samplePin line level h
  | edgeAcceptance line => cases ht; exact inv.atDue _ (fun s => inv.acceptInSample line) h
  | referencePulse =>
    cases ht
    split
    · exact h
    · exact inv.pulse s h
  | missingPulseExpiry => cases ht; exact inv.atDue _ inv.missPulse h
  | firingAgeDiscard trigger => cases ht; exact inv.atDue _ (fun s => inv.discardFiring s trigger) h
  | gateExpiry track => cases ht; exact inv.atDue _ (fun s => inv.endGate s track) h
  | gateResume track => cases ht; exact inv.atDue _ (fun s => inv.resumeReleased s track) h
  | journalWaitExpiry => cases ht; exact inv.atDue _ inv.expireRead h
  | armedStartEffect track => cases ht; exact inv.atDue _ (fun s => inv.startEffect s track) h
  | releaseStartEffect track => cases ht; exact inv.atDue _ (fun s => inv.releaseEffect s track) h
  | trackActionTick track => cases ht; exact inv.atDue _ (fun s => inv.trackActions s track) h
  | resetEnd straps =>
    cases ht
    split
    · exact inv.endReset s straps h
    · exact h
  | _ => cases ht; exact inv.request _ h

/-- Every step keeps an invariant. -/
theorem step {s t : State} (h : P s) (ht : step s = .next t) : P t := by
  unfold Machine.step at ht
  split at ht
  · rename_i c rest _
    exact inv.exec c (inv.pending s rest h) ht
  · split at ht
    · rename_i c _
      exact inv.exec c (inv.choices s _ h) ht
    · cases ht
      exact inv.advance s 1 h

end State.Invariant
end Sys2Proof.Machine
end

section
namespace Sys2Proof.Machine

/-! ### Where pages stand, page by page -/

/-- A track's queue fits its state (R28, R77). -/
def TrackState.fitsQueue (st : TrackState) (queue : List PageId) : Prop :=
  (st = .disabled → queue = []) ∧ (∀ a, st = .armed a → queue ≠ []) ∧ ∀ r, st = .holding (some r) → queue ≠ []

/-- A page stands where its state and its owner say, and nowhere else (R10). -/
structure State.Stands (s : State) (p : PageId) : Prop where
  queued : ∀ t : TrackId, p ∈ s.tracks[t].queue ↔ s.pages[p].state = .queued ∧ s.pages[p].owner = some t
  active : ∀ t : TrackId, s.tracks[t].activePage = some p ↔ s.pages[p].state = .active ∧ s.pages[p].owner = some t
  owned : s.pages[p].owner = none ↔ s.pages[p].state ≠ .queued ∧ s.pages[p].state ≠ .active

/-- Pages are placed when each page stands where it says and each queue holds no page twice and fits its track's state. -/
theorem State.placed_iff (s : State) :
    s.Placed ↔ (∀ t : TrackId, s.tracks[t].queue.Nodup) ∧
      (∀ t : TrackId, s.tracks[t].state.fitsQueue s.tracks[t].queue) ∧ ∀ p : PageId, s.Stands p := by
  constructor
  · intro h
    refine ⟨h.queueOnce, fun t => ⟨h.disabledEmpty t, h.armedQueue t, h.releaseQueue t⟩, fun p => ⟨fun t => ?_, fun t => ?_, ?_⟩⟩
    · refine ⟨h.queueOwned t p, fun ⟨hs, ho⟩ => ?_⟩
      obtain ⟨u, hu⟩ := h.queuedStands p hs
      rwa [← Option.some.inj ((h.queueOwned u p hu).2.symm.trans ho)]
    · refine ⟨h.activeOwned t p, fun ⟨hs, ho⟩ => ?_⟩
      obtain ⟨u, hu⟩ := h.activeStands p hs
      rwa [← Option.some.inj ((h.activeOwned u p hu).2.symm.trans ho)]
    · refine ⟨fun hn => ⟨fun hs => ?_, fun hs => ?_⟩, fun hs => h.unowned p hs.1 hs.2⟩
      · obtain ⟨u, hu⟩ := h.queuedStands p hs
        exact absurd ((h.queueOwned u p hu).2.symm.trans hn) nofun
      · obtain ⟨u, hu⟩ := h.activeStands p hs
        exact absurd ((h.activeOwned u p hu).2.symm.trans hn) nofun
  · rintro ⟨hnodup, hfits, hstands⟩
    have howner (p : PageId) (h : ¬(s.pages[p].state ≠ .queued ∧ s.pages[p].state ≠ .active)) :
        ∃ t, s.pages[p].owner = some t := Option.ne_none_iff_exists'.mp fun hn => h ((hstands p).owned.mp hn)
    exact
      { queueOnce := hnodup
        queueOwned := fun t p => ((hstands p).queued t).mp
        activeOwned := fun t p => ((hstands p).active t).mp
        queuedStands := fun p hs => (howner p fun h => h.1 hs).imp fun t ho => ((hstands p).queued t).mpr ⟨hs, ho⟩
        activeStands := fun p hs => (howner p fun h => h.2 hs).imp fun t ho => ((hstands p).active t).mpr ⟨hs, ho⟩
        unowned := fun p hq ha => (hstands p).owned.mpr ⟨hq, ha⟩
        disabledEmpty := fun t => (hfits t).1
        armedQueue := fun t => (hfits t).2.1
        releaseQueue := fun t => (hfits t).2.2 }

theorem State.Placed.stands {s : State} (h : s.Placed) (p : PageId) : s.Stands p := (s.placed_iff.mp h).2.2 p

theorem State.Placed.fits {s : State} (h : s.Placed) (t : TrackId) : s.tracks[t].state.fitsQueue s.tracks[t].queue :=
  (s.placed_iff.mp h).2.1 t

/-! ### What keeps pages placed -/

/-- The pages stay, and each track keeps its queue and its active page in a state that the queue fits. -/
theorem State.Placed.retrack {s s' : State} (h : s.Placed) (hp : s'.pages = s.pages)
    (hq : ∀ t : TrackId, s'.tracks[t].queue = s.tracks[t].queue)
    (ha : ∀ t : TrackId, s'.tracks[t].activePage = s.tracks[t].activePage)
    (hfit : ∀ t : TrackId, s'.tracks[t].state.fitsQueue s.tracks[t].queue) : s'.Placed := by
  refine (State.placed_iff _).mpr ⟨fun t => ?_, fun t => ?_, fun p => ⟨fun t => ?_, fun t => ?_, ?_⟩⟩
  · rw [hq]; exact h.queueOnce t
  · rw [hq]; exact hfit t
  · rw [hq, hp]; exact (h.stands p).queued t
  · rw [ha, hp]; exact (h.stands p).active t
  · rw [hp]; exact (h.stands p).owned

/-- Where pages stand is told by the pages and the tracks alone. -/
theorem State.Placed.congr {s s' : State} (h : s.Placed) (hp : s'.pages = s.pages) (ht : s'.tracks = s.tracks) : s'.Placed :=
  h.retrack hp (fun _ => by rw [ht]) (fun _ => by rw [ht]) fun t => by rw [ht]; exact h.fits t

/-- A change of a track that keeps its queue and its active page, in a state that the queue fits. -/
theorem State.Placed.modifyTrack {s : State} (h : s.Placed) (t : TrackId) (f : Track → Track)
    (hq : (f s.tracks[t]).queue = s.tracks[t].queue) (ha : (f s.tracks[t]).activePage = s.tracks[t].activePage)
    (hfit : (f s.tracks[t]).state.fitsQueue s.tracks[t].queue) : (s.modifyTrack t f).Placed := by
  refine h.retrack rfl (fun u => ?_) (fun u => ?_) fun u => ?_
  all_goals
    rw [State.modifyTrack_get]
    split
  · rename_i hu; subst hu; exact hq
  · rfl
  · rename_i hu; subst hu; exact ha
  · rfl
  · rename_i hu; subst hu; exact hfit
  · exact h.fits u

/-- A page that is on no track changes and stays on no track. -/
theorem State.Placed.modifyPage {s : State} (h : s.Placed) (p : PageId) (f : Page → Page)
    (hfrom : s.pages[p].state ≠ .queued ∧ s.pages[p].state ≠ .active)
    (hto : (f s.pages[p]).state ≠ .queued ∧ (f s.pages[p]).state ≠ .active) (howner : (f s.pages[p]).owner = none) :
    (s.modifyPage p f).Placed := by
  refine (State.placed_iff _).mpr ⟨h.queueOnce, h.fits, fun q => ?_⟩
  by_cases hq : q = p
  · subst hq
    have hs := h.stands q
    constructor
    · intro t
      rw [State.modifyPage_self, State.modifyPage_tracks, hs.queued]
      exact ⟨fun h => absurd h.1 hfrom.1, fun h => absurd h.1 hto.1⟩
    · intro t
      rw [State.modifyPage_self, State.modifyPage_tracks, hs.active]
      exact ⟨fun h => absurd h.1 hfrom.2, fun h => absurd h.1 hto.2⟩
    · rw [State.modifyPage_self]
      exact ⟨fun _ => hto, fun _ => howner⟩
  · obtain ⟨h1, h2, h3⟩ := h.stands q
    have hget : (s.modifyPage p f).pages[q] = s.pages[q] := by rw [State.modifyPage_get, if_neg hq]
    exact ⟨by rwa [hget], by rwa [hget], by rwa [hget]⟩

/-- A page and a track change together: every other page and track stays, the page stands where its new record says, and on
the track no other page comes or goes. -/
theorem State.Placed.move {s : State} (h : s.Placed) (p : PageId) (t : TrackId) (f : Page → Page) (g : Track → Track)
    (hnodup : (g s.tracks[t]).queue.Nodup) (hfit : (g s.tracks[t]).state.fitsQueue (g s.tracks[t]).queue)
    (hqueue : ∀ q, q ≠ p → (q ∈ (g s.tracks[t]).queue ↔ q ∈ s.tracks[t].queue))
    (hactive : ∀ q, q ≠ p → ((g s.tracks[t]).activePage = some q ↔ s.tracks[t].activePage = some q))
    (hqueued : p ∈ (g s.tracks[t]).queue ↔ (f s.pages[p]).state = .queued ∧ (f s.pages[p]).owner = some t)
    (hplayed : (g s.tracks[t]).activePage = some p ↔ (f s.pages[p]).state = .active ∧ (f s.pages[p]).owner = some t)
    (howned : (f s.pages[p]).owner = none ↔ (f s.pages[p]).state ≠ .queued ∧ (f s.pages[p]).state ≠ .active)
    (hfrom : s.pages[p].owner = none ∨ s.pages[p].owner = some t)
    (hto : (f s.pages[p]).owner = none ∨ (f s.pages[p]).owner = some t) :
    ((s.modifyPage p f).modifyTrack t g).Placed := by
  have htrack (u : TrackId) :
      ((s.modifyPage p f).modifyTrack t g).tracks[u] = if u = t then g s.tracks[u] else s.tracks[u] :=
    State.modifyTrack_get _ t u g
  have hpage (q : PageId) :
      ((s.modifyPage p f).modifyTrack t g).pages[q] = if q = p then f s.pages[q] else s.pages[q] :=
    State.modifyPage_get s p q f
  refine (State.placed_iff _).mpr ⟨fun u => ?_, fun u => ?_, fun q => ?_⟩
  · rw [htrack]
    split
    · rename_i hu; rw [hu]; exact hnodup
    · exact h.queueOnce u
  · rw [htrack]
    split
    · rename_i hu; rw [hu]; exact hfit
    · exact h.fits u
  · have hs := h.stands q
    by_cases hq : q = p
    · subst hq
      have hother (u : TrackId) (hu : u ≠ t) (o : Option TrackId) (ho : o = none ∨ o = some t) : o ≠ some u := by
        rintro rfl
        simp_all
      constructor
      · intro u
        rw [htrack, hpage, if_pos rfl]
        by_cases hu : u = t
        · rw [if_pos hu, hu]; exact hqueued
        · rw [if_neg hu, hs.queued]
          exact ⟨fun h => absurd h.2 (hother u hu _ hfrom), fun h => absurd h.2 (hother u hu _ hto)⟩
      · intro u
        rw [htrack, hpage, if_pos rfl]
        by_cases hu : u = t
        · rw [if_pos hu, hu]; exact hplayed
        · rw [if_neg hu, hs.active]
          exact ⟨fun h => absurd h.2 (hother u hu _ hfrom), fun h => absurd h.2 (hother u hu _ hto)⟩
      · rw [hpage, if_pos rfl]; exact howned
    · constructor
      · intro u
        rw [htrack, hpage, if_neg hq, ← hs.queued]
        by_cases hu : u = t
        · rw [if_pos hu, hu]; exact hqueue q hq
        · rw [if_neg hu]
      · intro u
        rw [htrack, hpage, if_neg hq, ← hs.active]
        by_cases hu : u = t
        · rw [if_pos hu, hu]; exact hactive q hq
        · rw [if_neg hu]
      · rw [hpage, if_neg hq]; exact hs.owned

/-- The front page of a queue becomes the active page of its track, which plays none (R21, R32). -/
theorem State.Placed.activate {s : State} (h : s.Placed) {t : TrackId} {p : PageId} {rest : List PageId}
    (hq : s.tracks[t].queue = p :: rest) (hnone : s.tracks[t].activePage = none) (g : Track → Track)
    (hgq : (g s.tracks[t]).queue = rest) (hga : (g s.tracks[t]).activePage = some p)
    (hfit : (g s.tracks[t]).state.fitsQueue rest) :
    ((s.modifyPage p fun pg => { pg with state := .active, owner := some t }).modifyTrack t g).Placed := by
  have hn := h.queueOnce t
  have hs := ((h.stands p).queued t).mp (by rw [hq]; exact List.mem_cons_self)
  rw [hq, List.nodup_cons] at hn
  refine h.move p t _ g (hgq ▸ hn.2) (hgq ▸ hfit) ?_ ?_ ?_ ?_ ?_ (.inr hs.2) (.inr rfl)
  · intro q hqp
    rw [hgq, hq]
    simp [hqp]
  · intro q hqp
    rw [hga, hnone]
    simp [Ne.symm hqp]
  · rw [hgq]
    exact ⟨fun h => absurd h hn.1, fun h => by cases h.1⟩
  · exact ⟨fun _ => ⟨rfl, rfl⟩, fun _ => hga⟩
  · exact ⟨fun h => (by cases h), fun h => absurd rfl h.2⟩

/-- A page that leaves its track is SEALED or FREE, and has no owner (R22). -/
theorem Page.leave_off (pg : Page) : pg.leave.state ≠ .queued ∧ pg.leave.state ≠ .active ∧ pg.leave.owner = none := by
  unfold Page.leave
  split
  · exact ⟨nofun, nofun, rfl⟩
  · exact ⟨nofun, nofun, rfl⟩

/-- The active page of a track leaves it, and the track plays no page (R22). -/
theorem State.Placed.retired {s : State} (h : s.Placed) {t : TrackId} {p : PageId} (hp : s.tracks[t].activePage = some p)
    (g : Track → Track) (hgq : (g s.tracks[t]).queue = s.tracks[t].queue) (hga : (g s.tracks[t]).activePage = none)
    (hfit : (g s.tracks[t]).state.fitsQueue s.tracks[t].queue) : ((s.modifyPage p Page.leave).modifyTrack t g).Placed := by
  have hs := ((h.stands p).active t).mp hp
  obtain ⟨hnq, hna, hno⟩ := s.pages[p].leave_off
  refine h.move p t _ g (hgq ▸ h.queueOnce t) (hgq ▸ hfit) (fun q _ => by rw [hgq]) ?_ ?_ ?_ ?_ (.inr hs.2) (.inl hno)
  · intro q hqp
    rw [hga, hp]
    simp [Ne.symm hqp]
  · rw [hgq, (h.stands p).queued, hs.1]
    exact ⟨fun h => (by cases h.1), fun h => absurd h.1 hnq⟩
  · rw [hga]
    exact ⟨fun h => (by cases h), fun h => absurd h.1 hna⟩
  · exact ⟨fun _ => ⟨hnq, hna⟩, fun _ => hno⟩

/-- Leaving twice is leaving once. -/
theorem Page.leave_leave (pg : Page) : pg.leave.leave = pg.leave := by
  cases hr : pg.retain <;> simp [Page.leave, hr, Page.cleared]

theorem State.leavePages_get (s : State) (ps : List PageId) (q : PageId) :
    (s.leavePages ps).pages[q] = if q ∈ ps then s.pages[q].leave else s.pages[q] := by
  induction ps generalizing s with
  | nil => rfl
  | cons p ps ih =>
    rw [State.leavePages, List.foldl_cons, ← State.leavePages, ih, State.modifyPage_get]
    by_cases hp : q = p
    · simp [hp, Page.leave_leave]
    · simp [hp]

/-- A flush takes every page off a track's queue, and nothing else moves (R23, R78). -/
theorem State.Placed.flush {s : State} (h : s.Placed) (t : TrackId) (g : Track → Track)
    (hgq : (g s.tracks[t]).queue = []) (hga : (g s.tracks[t]).activePage = s.tracks[t].activePage)
    (hfit : (g s.tracks[t]).state.fitsQueue []) : ((s.leavePages s.tracks[t].queue).modifyTrack t g).Placed := by
  have htrack (u : TrackId) : ((s.leavePages s.tracks[t].queue).modifyTrack t g).tracks[u] =
      if u = t then g s.tracks[u] else s.tracks[u] := by
    rw [State.modifyTrack_get, State.leavePages_tracks]
  have hpage (q : PageId) : ((s.leavePages s.tracks[t].queue).modifyTrack t g).pages[q] =
      if q ∈ s.tracks[t].queue then s.pages[q].leave else s.pages[q] := State.leavePages_get s _ q
  refine (State.placed_iff _).mpr ⟨fun u => ?_, fun u => ?_, fun q => ?_⟩
  · rw [htrack]
    split
    · rename_i hu; rw [hu, hgq]; exact List.nodup_nil
    · exact h.queueOnce u
  · rw [htrack]
    split
    · rename_i hu; rw [hu, hgq]; exact hfit
    · exact h.fits u
  · have hs := h.stands q
    have hactive (u : TrackId) : (if u = t then g s.tracks[u] else s.tracks[u]).activePage = s.tracks[u].activePage := by
      split
      · rename_i hu; rw [hu]; exact hga
      · rfl
    by_cases hq : q ∈ s.tracks[t].queue
    · obtain ⟨hqueued, howner⟩ := (hs.queued t).mp hq
      obtain ⟨hnq, hna, hno⟩ := s.pages[q].leave_off
      constructor
      · intro u
        rw [htrack, hpage, if_pos hq]
        refine ⟨fun hu => ?_, fun h => absurd h.1 hnq⟩
        split at hu
        · rename_i hut; rw [hut, hgq] at hu; cases hu
        · rename_i hut
          exact absurd (Option.some.inj (((hs.queued u).mp hu).2.symm.trans howner)) hut
      · intro u
        rw [htrack, hpage, if_pos hq, hactive, hs.active, hqueued]
        exact ⟨fun h => (by cases h.1), fun h => absurd h.1 hna⟩
      · rw [hpage, if_pos hq]
        exact ⟨fun _ => ⟨hnq, hna⟩, fun _ => hno⟩
    · constructor
      · intro u
        rw [htrack, hpage, if_neg hq, ← hs.queued]
        split
        · rename_i hu; rw [hu, hgq]; exact ⟨fun h => (by cases h), fun h => absurd h hq⟩
        · rfl
      · intro u
        rw [htrack, hpage, if_neg hq, hactive, hs.active]
      · rw [hpage, if_neg hq]; exact hs.owned

end Sys2Proof.Machine
end

section
namespace Sys2Proof.Machine

theorem Track.activePage_eq {tr : Track} {st : TrackState} (h : tr.state = st) :
    tr.activePage = st.context.map Playback.page := by rw [Track.activePage, h]

theorem Track.activePage_playing {tr : Track} {p : Playback} (h : tr.state = .playing p) : tr.activePage = some p.page :=
  Track.activePage_eq h

theorem Track.activePage_stalled {tr : Track} {p : Playback} {g : GateWait} (h : tr.state = .stalled p g) :
    tr.activePage = some p.page := Track.activePage_eq h

theorem State.setTrackState_activePage (s : State) (t : TrackId) (st : TrackState) :
    (s.setTrackState t st).tracks[t].activePage = st.context.map Playback.page := by
  rw [State.setTrackState, State.modifyTrack_self]; rfl

@[simp] theorem State.applyPending_state (s : State) (t u : TrackId) :
    (s.applyPending t).tracks[u].state = s.tracks[u].state := by
  rw [State.applyPending_track]; split <;> rfl

@[simp] theorem State.applyPending_queue (s : State) (t u : TrackId) :
    (s.applyPending t).tracks[u].queue = s.tracks[u].queue := by
  rw [State.applyPending_track]; split <;> rfl

theorem State.applyPending_activePage (s : State) (t u : TrackId) :
    (s.applyPending t).tracks[u].activePage = s.tracks[u].activePage :=
  Track.activePage_eq (s.applyPending_state t u)

theorem State.retire_pages (s : State) (t : TrackId) (p : Playback) (o : RetireOutcome) :
    (s.retire t p o).pages = (s.modifyPage p.page Page.leave).pages := by simp [State.retire]

/-- The track record of a page made active from the front of its queue (R32). -/
def Track.activated (tr : Track) (p : PageId) (rest : List PageId) (start : Stamp) : Track :=
  { tr with state := .playing (Playback.begin p start), queue := rest, looping := false }

/-- The front page of a queue is made active (R21, R32). -/
theorem State.makeActive_cons {s : State} {t : TrackId} {p : PageId} {rest : List PageId} (hq : s.tracks[t].queue = p :: rest)
    (start : Stamp) (late : Bool) :
    s.makeActive t start late = ((s.modifyPage p fun pg => { pg with state := .active, owner := some t }).modifyTrack t
      fun tr => tr.activated p rest start).queueEventIf s.tracks[t].reportStarted (.trackStarted t p start late) := by
  rw [State.makeActive, hq]
  rfl

theorem State.makeActive_nil {s : State} {t : TrackId} (hq : s.tracks[t].queue = []) (start : Stamp) (late : Bool) :
    s.makeActive t start late = s := by
  rw [State.makeActive, hq]

/-- The state that a track had is of no matter once its front page is made active. -/
theorem State.setTrackState_makeActive (s : State) (t : TrackId) (st : TrackState) (start : Stamp) (late : Bool)
    (h : s.tracks[t].queue ≠ []) : (s.setTrackState t st).makeActive t start late = s.makeActive t start late := by
  obtain ⟨p, rest, hq⟩ := List.exists_cons_of_ne_nil h
  have hget : (s.setTrackState t st).tracks[t] = { s.tracks[t] with state := st } := State.modifyTrack_self s t _
  have hq' : (s.setTrackState t st).tracks[t].queue = p :: rest := by rw [hget]; exact hq
  rw [State.makeActive_cons hq, State.makeActive_cons hq', hget]
  simp [State.setTrackState, State.modifyTrack, State.modifyPage, Track.activated]

namespace State.Placed

variable {s : State} (h : s.Placed)
include h

/-! ### Events and consumed firings move no page -/

theorem queueEvent (e : Event) : (s.queueEvent e).Placed := h.congr (by simp) (by simp)

theorem queueEventIf (wanted : Bool) (e : Event) : (s.queueEventIf wanted e).Placed := h.congr (by simp) (by simp)

theorem consume (k : TriggerId) : (s.consume k).Placed := h.congr (by simp) (by simp)

/-! ### Tracks -/

variable (t : TrackId)

theorem setTrackState (st : TrackState) (ha : st.context.map Playback.page = s.tracks[t].activePage)
    (hfit : st.fitsQueue s.tracks[t].queue) : (s.setTrackState t st).Placed :=
  h.modifyTrack t _ rfl ha hfit

theorem applyPending : (s.applyPending t).Placed := by
  unfold State.applyPending
  split
  · exact h
  · exact (h.congr (s' := s.storeRest _ _) rfl rfl).modifyTrack t _ rfl rfl (h.fits t)

/-- A track that plays no page comes to rest in IDLE, HOLDING or FAULTED. -/
theorem settle (ha : s.tracks[t].activePage = none) (st : TrackState) (hst : st.context = none)
    (hfit : st.fitsQueue s.tracks[t].queue) : (s.settle t st).Placed :=
  h.modifyTrack t _ rfl (by rw [ha, Track.activePage, hst]; rfl) hfit

/-- A page is retired and its track comes to rest. -/
theorem retire_settle {p : Playback} (hp : s.tracks[t].activePage = some p.page) (o : RetireOutcome) (st : TrackState)
    (hst : st.context = none) (hfit : st.fitsQueue s.tracks[t].queue) : ((s.retire t p o).settle t st).Placed := by
  refine (h.retired hp (fun tr => { tr with
    state := st, hold := false, looping := false, stopRequest := false, pendingConfig := none }) rfl ?_ hfit).congr
    (State.retire_pages s t p o) ?_
  · rw [Track.activePage, hst]; rfl
  · simp [State.settle, State.modifyTrack]

theorem makeActive (ha : s.tracks[t].activePage = none) (start : Stamp) (late : Bool) :
    (s.makeActive t start late).Placed := by
  cases hq : s.tracks[t].queue with
  | nil => rwa [State.makeActive_nil hq]
  | cons p rest =>
    rw [State.makeActive_cons hq]
    exact (h.activate hq ha (fun tr => tr.activated p rest start) rfl rfl ⟨nofun, nofun, nofun⟩).congr (by simp) (by simp)

/-- A page is retired and the next of the queue made active. -/
theorem retire_makeActive {p : Playback} (hp : s.tracks[t].activePage = some p.page) (o : RetireOutcome)
    (hq : s.tracks[t].queue ≠ []) (start : Stamp) (late : Bool) : ((s.retire t p o).makeActive t start late).Placed := by
  have hidle : ((s.retire t p o).setTrackState t .idle).Placed :=
    (h.retired hp (fun tr => { tr with state := .idle }) rfl rfl ⟨nofun, nofun, nofun⟩).congr
      (State.retire_pages s t p o) (by simp [State.setTrackState, State.modifyTrack])
  rw [← State.setTrackState_makeActive _ t .idle start late (by simpa using hq)]
  exact hidle.makeActive t (State.setTrackState_activePage _ t _) start late

/-! ### Steps and gates -/

theorem gateFault {p : Playback} (hp : s.tracks[t].activePage = some p.page) (k : TriggerId) (report : Bool) (stall : Stamp) :
    (s.gateFault t p k report stall).Placed := by
  have happlied : ((s.queueEventIf report (.gateReleased t k .timeout stall)).applyPending t).Placed :=
    (h.congr (by simp) (by simp)).applyPending t
  have hactive := hp
  rw [← State.queueEventIf_tracks s report (.gateReleased t k .timeout stall), ← State.applyPending_activePage _ t] at hactive
  exact (happlied.retire_settle t hactive .faulted .faulted rfl ⟨nofun, nofun, nofun⟩).congr
    (by simp [State.gateFault]) (by simp [State.gateFault, State.settle, State.modifyTrack])

theorem reachGate {p : Playback} (hp : s.tracks[t].activePage = some p.page) (index : Nat) (offset : Word32) (k : TriggerId)
    (timeout : Word32) (action : GateAction) (report : Bool) :
    (s.reachGate t p index offset k timeout action report).Placed := by
  unfold State.reachGate
  split
  · exact h.congr (by simp) (by simp)
  · split
    · exact h.congr (by simp) (by simp)
    · exact h.gateFault t hp k report 0
  all_goals exact h.setTrackState t _ hp.symm ⟨nofun, nofun, nofun⟩

/-- A playing track goes on with the same page. -/
theorem play {p p' : Playback} (hp : s.tracks[t].activePage = some p.page) (hpage : p'.page = p.page) :
    (s.setTrackState t (.playing p')).Placed :=
  h.setTrackState t _ (by rw [hp, ← hpage]; rfl) ⟨nofun, nofun, nofun⟩

theorem takeStep {p : Playback} (hp : s.tracks[t].activePage = some p.page) (st : Step) : (s.takeStep t p st).Placed := by
  cases st with
  | drive offset lines levels => exact (h.congr (s' := s.driveLines lines levels) rfl rfl).play t hp rfl
  | toggle offset lines => exact (h.congr (s' := s.toggleLines lines) rfl rfl).play t hp rfl
  | pulse offset lines level width => exact (h.congr (s' := s.driveAll lines level) rfl rfl).play t hp rfl
  | mark offset code =>
    exact (h.play t (p' := { p with nextStep := p.nextStep + 1 }) hp rfl).congr (by simp [State.takeStep])
      (by simp [State.takeStep])
  | gate offset k timeout action report =>
    exact (h.play t (p' := { p with nextStep := p.nextStep + 1 }) hp rfl).reachGate t
      (State.setTrackState_activePage _ t _) _ _ _ _ _ _

theorem takeSteps (pageTime : Nat) (sts : List Step) : (State.takeSteps t pageTime sts s).Placed := by
  induction sts generalizing s with
  | nil => exact h
  | cons st rest ih =>
    unfold State.takeSteps
    split
    · rename_i p hp
      split
      · exact ih (h.takeStep t (Track.activePage_playing hp) st)
      · exact h
    · exact h

theorem playFrom (pageTime : Nat) : (s.playFrom t pageTime).Placed := by
  unfold State.playFrom
  split
  · exact h.takeSteps t pageTime _
  · exact h

omit t in
theorem endPulses (ends : List PulseEnd) : (s.endPulses ends).Placed :=
  foldl_keeps (P := State.Placed) (fun s e h => h.congr (s' := s.driveAll e.lines e.level) rfl rfl) _ s h

end State.Placed
end Sys2Proof.Machine
end

section
namespace Sys2Proof.Machine

theorem Track.activePage_armed {tr : Track} {a : ArmedStart} (h : tr.state = .armed a) : tr.activePage = none :=
  Track.activePage_eq h

theorem Track.activePage_holding {tr : Track} {r : Option Stamp} (h : tr.state = .holding r) : tr.activePage = none :=
  Track.activePage_eq h

/-- A track that waits on a trigger with mark START plays no page. -/
theorem Track.activePage_waitsOn_start {tr : Track} {k : TriggerId} (h : tr.waitsOn k = some .start) :
    tr.activePage = none := by
  unfold Track.waitsOn at h
  split at h
  · rename_i hst
    exact Track.activePage_eq hst
  · split at h <;> cases h
  · cases h

/-- A track ARMED in form ON_EPOCH plays no page. -/
theorem Track.activePage_onEpoch {tr : Track} (h : tr.onEpoch = true) : tr.activePage = none := by
  unfold Track.onEpoch at h
  split at h
  · rename_i hst
    exact Track.activePage_eq hst
  · cases h

/-- A release keeps the page that a track plays, and whether its queue fits. -/
theorem TrackState.released_keeps (st : TrackState) (f c : Stamp) (q : List PageId) (hfit : st.fitsQueue q) :
    (st.released f c).context.map Playback.page = st.context.map Playback.page ∧ (st.released f c).fitsQueue q := by
  unfold TrackState.released
  split
  · exact ⟨rfl, nofun, fun _ _ => hfit.2.1 _ rfl, nofun⟩
  · exact ⟨rfl, nofun, nofun, nofun⟩
  · exact ⟨rfl, hfit⟩

/-- A reference pulse keeps the page that a track plays, and whether its queue fits. -/
theorem TrackState.onPulse_keeps (st : TrackState) (epoch : Word32) (p : Stamp) (q : List PageId) (hfit : st.fitsQueue q) :
    (st.onPulse epoch p).context.map Playback.page = st.context.map Playback.page ∧ (st.onPulse epoch p).fitsQueue q := by
  unfold TrackState.onPulse
  split
  · split
    · exact ⟨rfl, nofun, fun _ _ => hfit.2.1 _ rfl, nofun⟩
    · exact ⟨rfl, hfit⟩
  · exact ⟨rfl, hfit⟩

theorem State.cancelStart_tracks (s : State) (t : TrackId) (r : CancelReason) :
    (s.cancelStart t r).tracks = (s.settle t .idle).tracks := by simp [State.cancelStart]

@[simp] theorem State.endPulses_tracks (s : State) (ends : List PulseEnd) : (s.endPulses ends).tracks = s.tracks :=
  foldl_keeps (P := fun u => u.tracks = s.tracks) (fun u e hu => (u.driveAll_tracks e.lines e.level).trans hu) ends s rfl

@[simp] theorem State.noticeJournal_pages (s : State) : s.noticeJournal.pages = s.pages := by
  unfold State.noticeJournal; split <;> simp
@[simp] theorem State.noticeJournal_tracks (s : State) : s.noticeJournal.tracks = s.tracks := by
  unfold State.noticeJournal; split <;> simp
@[simp] theorem State.completeRead_pages (s : State) : s.completeRead.pages = s.pages := by
  unfold State.completeRead; split <;> simp
@[simp] theorem State.completeRead_tracks (s : State) : s.completeRead.tracks = s.tracks := by
  unfold State.completeRead; split <;> simp

@[simp] theorem State.recordEdge_pages (s : State) (l : LineId) (rising : Bool) (f : Stamp) :
    (s.recordEdge l rising f).pages = s.pages := by
  unfold State.recordEdge
  dsimp only
  repeat' split
  all_goals simp

@[simp] theorem State.recordEdge_tracks (s : State) (l : LineId) (rising : Bool) (f : Stamp) :
    (s.recordEdge l rising f).tracks = s.tracks := by
  unfold State.recordEdge
  dsimp only
  repeat' split
  all_goals simp

namespace State.Placed

variable {s : State} (h : s.Placed) (t : TrackId)
include h

/-! ### Repetitions, run ends and gates -/

theorem underrun {p : Playback} (hp : s.tracks[t].activePage = some p.page) : (s.underrun t p).Placed := by
  have hretired (st : TrackState) (hst : st.context = none) (hfit : st.fitsQueue s.tracks[t].queue) :=
    h.retire_settle t hp .complete st hst hfit
  unfold State.underrun
  split
  · exact (hretired (.holding none) rfl ⟨nofun, nofun, nofun⟩).congr (by simp) (by simp)
  · exact (hretired .idle rfl ⟨nofun, nofun, nofun⟩).congr (by simp) (by simp)
  · exact (hretired .faulted rfl ⟨nofun, nofun, nofun⟩).congr (by simp) (by simp)
  · apply State.Placed.queueEventIf
    exact h.modifyTrack t _ rfl hp.symm ⟨nofun, nofun, nofun⟩

theorem runEnd {p : Playback} (hp : s.tracks[t].activePage = some p.page) : (s.runEnd t p).Placed := by
  have ha := h.applyPending t
  have hpa := (s.applyPending_activePage t t).trans hp
  unfold State.runEnd
  dsimp only
  split
  · exact (ha.retire_settle t hpa .complete .idle rfl ⟨nofun, nofun, nofun⟩).congr (by simp) (by simp)
  split
  · exact (ha.retire_settle t hpa .complete (.holding none) rfl ⟨nofun, nofun, nofun⟩).congr (by simp) (by simp)
  split
  · rename_i hq
    exact ha.retire_makeActive t hpa .complete hq _ _
  · exact ha.underrun t hpa

theorem boundary {p : Playback} (hp : s.tracks[t].activePage = some p.page) : (s.boundary t p).Placed := by
  unfold State.boundary
  dsimp only
  split
  · exact h.play t hp rfl
  · exact h.runEnd t hp

theorem pulsesDue {p : Playback} (hp : s.tracks[t].activePage = some p.page) (pageTime : Nat) :
    (s.pulsesDue t p pageTime).Placed :=
  (h.endPulses _).play t (by rw [State.endPulses_tracks]; exact hp) rfl

theorem trackActions : (s.trackActions t).Placed := by
  unfold State.trackActions
  split
  · rename_i p hp
    have hs' := h.pulsesDue t (Track.activePage_playing hp) (s.nextPoint p)
    dsimp only
    split
    · exact (hs'.boundary t (State.setTrackState_activePage _ t _)).playFrom t 0
    · exact hs'.playFrom t _
  · exact h

theorem resumePage {p : Playback} (hp : s.tracks[t].activePage = some p.page) (g : GateWait) (o : GateOutcome) :
    (s.resumePage t p g o).Placed :=
  ((h.play t (p' := { p with stall := p.stall + (s.timeline - g.reached) }) hp rfl).queueEventIf g.report
    (.gateReleased t g.trigger o (s.timeline - g.reached))).playFrom t _

theorem endGate : (s.endGate t).Placed := by
  unfold State.endGate
  split
  · rename_i p g hst
    have hp := Track.activePage_stalled hst
    split
    · exact h.resumePage t hp g .timeout
    · exact h.gateFault t hp _ _ _
  · exact h

theorem resumeReleased : (s.resumeReleased t).Placed := by
  unfold State.resumeReleased
  split
  · rename_i p g hst
    exact h.resumePage t (Track.activePage_stalled hst) g .fired
  · exact h

/-! ### Starts -/

theorem startEffect : (s.startEffect t).Placed := by
  unfold State.startEffect
  split
  · rename_i start late reply p rest hst hq
    exact State.Placed.playFrom ((h.makeActive t (Track.activePage_armed hst) start late).congr (by simp) (by simp)) t 0
  · exact h

theorem releaseEffect : (s.releaseEffect t).Placed := by
  unfold State.releaseEffect
  split
  · rename_i start hst
    exact (h.makeActive t (Track.activePage_holding hst) start false).playFrom t 0
  · exact h

theorem cancelStart (ha : s.tracks[t].activePage = none) (r : CancelReason) : (s.cancelStart t r).Placed :=
  (h.settle t ha .idle rfl ⟨nofun, nofun, nofun⟩).congr (by simp) (State.cancelStart_tracks s t r)

theorem cancelStarts (ts : List TrackId) (ha : ∀ t ∈ ts, s.tracks[t].activePage = none) (r : CancelReason) :
    (ts.foldl (fun s t => s.cancelStart t r) s).Placed := by
  induction ts generalizing s with
  | nil => exact h
  | cons t ts ih =>
    refine ih (h.cancelStart t (ha t (by simp)) r) fun u hu => ?_
    rw [State.cancelStart_tracks, State.settle_get]
    split
    · rfl
    · exact ha u (by simp [hu])

/-- A track is flushed and its start, if any, cancelled or removed (R69, R77, R78). -/
theorem flush_afterFlush : ((s.flush t).afterFlush t).Placed := by
  have hstate : (s.flush t).tracks[t].state = s.tracks[t].state := by rw [State.flush_get, if_pos rfl]
  have hflush (hfit : s.tracks[t].state.fitsQueue []) : (s.flush t).Placed := h.flush t _ rfl rfl hfit
  unfold State.afterFlush
  rw [hstate]
  split
  · rename_i a hst
    refine (h.flush t (fun tr => { tr with
      state := .idle, queue := [], hold := false, looping := false, stopRequest := false, pendingConfig := none }) rfl
      (Track.activePage_armed hst).symm ⟨nofun, nofun, nofun⟩).congr (by simp [State.flush]) ?_
    rw [State.cancelStart_tracks]
    simp [State.settle, State.flush, State.modifyTrack]
  · rename_i r hst
    refine (h.flush t (fun tr => { tr with state := .holding none, queue := [] }) rfl
      (Track.activePage_holding hst).symm ⟨nofun, nofun, nofun⟩).congr (by simp [State.flush]) ?_
    simp [State.setTrackState, State.flush, State.modifyTrack]
  all_goals
    rename_i hst
    exact hflush (by rw [hst]; exact ⟨fun _ => rfl, nofun, nofun⟩)

/-! ### Firings and pulses -/

theorem releaseTrack (f c : Stamp) : (s.releaseTrack f c t).Placed := by
  obtain ⟨ha, hfit⟩ := s.tracks[t].state.released_keeps f c _ (h.fits t)
  exact h.setTrackState t _ ha hfit

omit t in
theorem fire (k : TriggerId) (g : TriggerConfig) (f c : Stamp) : (s.fire k g f c).Placed := by
  have hfired := (h.congr (s' := s.setLatch k (.fired f c false)) rfl rfl).queueEventIf g.report
    (.triggerFired k g.line f (s.consumers k).length)
  unfold State.fire
  dsimp only
  split
  · exact hfired
  · exact (foldl_keeps (P := State.Placed) (fun s t h => h.releaseTrack t f c) _ _ hfired).consume k

omit t in
theorem edgeAtTrigger (rising : Bool) (f c : Stamp) (k : TriggerId) : (s.edgeAtTrigger rising f c k).Placed := by
  unfold State.edgeAtTrigger
  split
  · exact h
  split
  · exact h
  · split
    · exact h.fire k _ f c
    · exact h
  · split
    · exact (h.congr (s' := s.setLatch k _) rfl rfl).queueEvent _
    · exact h
  · split
    · exact h
    · exact h.congr rfl rfl

omit t in
theorem acceptEdge (l : LineId) : (s.acceptEdge l).Placed := by
  unfold State.acceptEdge
  split
  · refine foldl_keeps (P := State.Placed) (fun s r h => ?_) _ _ (h.congr rfl rfl)
    cases r with
    | journal => exact h.congr (by simp [State.deliver]) (by simp [State.deliver])
    | trigger k => exact h.edgeAtTrigger _ _ _ k
  · exact h

omit t in
theorem acceptUnfiltered (l : LineId) : (s.acceptUnfiltered l).Placed := by
  unfold State.acceptUnfiltered
  split
  · exact State.endSample_keeps (fun _ h => h.congr rfl rfl) (fun _ l h => h.acceptEdge l) h
  · exact h

theorem dismiss (k : TriggerId) : (s.dismiss k t).Placed := by
  unfold State.dismiss
  split
  · rename_i hw
    exact h.cancelStart t (Track.activePage_waitsOn_start hw) _
  · exact h.endGate t
  · exact h

omit t in
theorem disarm (k : TriggerId) : (s.disarm k).Placed :=
  foldl_keeps (P := State.Placed) (fun _ t h => h.dismiss t k) _ _ (h.congr (s' := s.setLatch k .disarmed) rfl rfl)

omit t in
theorem lossOfLock : s.lossOfLock.Placed := by
  unfold State.lossOfLock
  dsimp only
  apply State.Placed.cancelStarts
  · apply State.Placed.queueEvent
    exact h.congr rfl rfl
  · intro t ht
    rw [State.queueEvent_tracks]
    exact Track.activePage_onEpoch (List.mem_filter.mp ht).2

omit t in
theorem checkPulse : s.checkPulse.Placed := by
  unfold State.checkPulse
  dsimp only
  split
  · exact h.congr rfl rfl
  split
  · split
    · apply State.Placed.queueEvent
      exact h.congr rfl rfl
    · exact h.congr rfl rfl
  · split
    · exact State.Placed.lossOfLock (h.congr rfl rfl)
    · exact h.congr rfl rfl

omit t in
theorem releaseEpoch : s.releaseEpoch.Placed := by
  have htrack (t : TrackId) : s.releaseEpoch.tracks[t] =
      { s.tracks[t] with state := s.tracks[t].state.onPulse s.reference.epoch s.timeline } := by
    simp [State.releaseEpoch]
  have hkeeps (t : TrackId) := s.tracks[t].state.onPulse_keeps s.reference.epoch s.timeline _ (h.fits t)
  refine h.retrack rfl (fun t => ?_) (fun t => ?_) fun t => ?_
  · rw [htrack]
  · rw [htrack]; exact (hkeeps t).1
  · rw [htrack]; exact (hkeeps t).2

omit t in
theorem pulse : s.pulse.Placed := by
  unfold State.pulse
  apply State.Placed.releaseEpoch
  split
  · exact h.congr rfl rfl
  · exact State.Placed.checkPulse (h.congr rfl rfl)

omit t in
theorem missPulse : s.missPulse.Placed := by
  unfold State.missPulse
  dsimp only
  split
  · exact State.Placed.lossOfLock (h.congr rfl rfl)
  · exact h.congr rfl rfl

/-! ### Session ends -/

omit t in
/-- A session end leaves every page FREE and every queue empty (R25, R82). -/
theorem endSession : s.endSession.Placed := by
  have hempty (t : TrackId) : s.endSession.tracks[t].queue = [] ∧ s.endSession.tracks[t].activePage = none ∧
      s.endSession.tracks[t].state.fitsQueue [] := by
    rw [State.endSession_track]
    by_cases hd : s.tracks[t].state = .disabled
    · rw [Track.ended_of_disabled hd]
      exact ⟨h.disabledEmpty t hd, Track.activePage_eq hd, by rw [hd]; exact ⟨fun _ => rfl, nofun, nofun⟩⟩
    · rw [Track.ended_spec hd]
      exact ⟨rfl, rfl, nofun, nofun, nofun⟩
  refine (State.placed_iff _).mpr ⟨fun t => ?_, fun t => ?_, fun p => ⟨fun t => ?_, fun t => ?_, ?_⟩⟩
  · rw [(hempty t).1]; exact List.nodup_nil
  · rw [(hempty t).1]; exact (hempty t).2.2
  · rw [(hempty t).1, State.endSession_page]; simp [Page.cleared]
  · rw [(hempty t).2.1, State.endSession_page]; simp [Page.cleared]
  · rw [State.endSession_page]; simp [Page.cleared]

omit t in
theorem answerDeferred : s.answerDeferred.Placed :=
  State.Placed.congr
    (foldl_keeps (P := State.Placed) (fun s o h => h.congr (s' := s.composeAborted o) (by simp) (by simp)) _ _
      (h.congr (s' := { s with choices := s.choices + 1 }) rfl rfl)) rfl rfl

omit t in
theorem loseLink : s.loseLink.Placed :=
  h.endSession.congr (by simp only [State.loseLink, State.discardDeferred]) (by simp only [State.loseLink, State.discardDeferred])

end State.Placed
end Sys2Proof.Machine
end

section
namespace Sys2Proof.Machine

@[simp] theorem State.removeEvents_pages (s : State) (n : Nat) : (s.removeEvents n).pages = s.pages := by
  unfold State.removeEvents; dsimp only; split <;> simp
@[simp] theorem State.removeEvents_tracks (s : State) (n : Nat) : (s.removeEvents n).tracks = s.tracks := by
  unfold State.removeEvents; dsimp only; split <;> simp

@[simp] theorem State.advance_pages (s : State) (n : Nat) : (s.advance n).pages = s.pages := by
  unfold State.advance; split <;> rfl
@[simp] theorem State.advance_tracks (s : State) (n : Nat) : (s.advance n).tracks = s.tracks := by
  unfold State.advance; split <;> rfl

/-- Executing a request moves no page but where its owner does. -/
theorem State.execute_pages (s : State) (f : Frame) (own : State → State × Answer) :
    (s.execute f own).pages = (own s).1.pages ∧ (s.execute f own).tracks = (own s).1.tracks := by
  unfold State.execute
  rcases own s with ⟨s', status | owner⟩ <;> simp

namespace State.Placed

variable {s : State} (h : s.Placed)
include h

/-! ### The page pool's answers -/

theorem openPage (period : Word32) (repeats : Word16) (flags reserved : Byte) :
    (answerOpenPage period repeats flags reserved s).1.Placed := by
  unfold answerOpenPage
  split
  · exact h
  split
  · exact h
  · rename_i p hp
    have hfree : s.pages[p].state = .free := by simpa using List.find?_some hp
    dsimp only
    exact h.modifyPage p _ (by rw [hfree]; exact ⟨nofun, nofun⟩) ⟨nofun, nofun⟩ rfl

theorem appendSteps (page reserved : Byte) (records : List StepRecord) :
    (answerAppendSteps page reserved records s).1.Placed := by
  unfold answerAppendSteps
  split
  · exact h
  split
  · exact h
  rename_i p _
  split
  · exact h
  iterate 3 · exact h
  rename_i hopen
  split
  · exact h
  split
  · exact h
  split
  · exact h
  · have hoff : s.pages[p].state ≠ .queued ∧ s.pages[p].state ≠ .active := by rw [hopen]; exact ⟨nofun, nofun⟩
    dsimp only
    exact h.modifyPage p _ hoff hoff (h.unowned p hoff.1 hoff.2)

theorem sealPage (page : Byte) : (answerSealPage page s).1.Placed := by
  unfold answerSealPage
  split
  · exact h
  rename_i p _
  dsimp only
  split
  iterate 4 · exact h
  rename_i hopen
  have hoff : s.pages[p].state ≠ .queued ∧ s.pages[p].state ≠ .active := by rw [hopen]; exact ⟨nofun, nofun⟩
  dsimp only
  exact h.modifyPage p _ hoff ⟨nofun, nofun⟩ (h.unowned p hoff.1 hoff.2)

theorem discardPage (page : Byte) : (answerDiscardPage page s).1.Placed := by
  unfold answerDiscardPage
  split
  · exact h
  rename_i p _
  split
  iterate 3 · exact h
  all_goals
    rename_i hst
    dsimp only
    exact h.modifyPage p _ (by rw [hst]; exact ⟨nofun, nofun⟩) ⟨nofun, nofun⟩ rfl

/-! ### The track units' answers -/

theorem disableTrack (t : TrackId) (hfix : s.tracks[t].state.fixesGroup = false) (hq : s.tracks[t].queue = []) :
    (s.disableTrack t).Placed := by
  have ha : s.tracks[t].activePage = none := by
    unfold TrackState.fixesGroup at hfix
    split at hfix
    iterate 4 · cases hfix
    all_goals (rename_i hst; exact Track.activePage_eq hst)
  exact (h.congr (s' := s.applyRest t) rfl rfl).modifyTrack t _ rfl ha.symm ⟨fun _ => hq, nofun, nofun⟩

theorem enableTrack (t : TrackId) (group rest : LineSet) (policy : Policy) (started retired : Bool) :
    (s.enableTrack t group rest policy started retired).Placed := by
  have hfit := h.fits t
  have configured {u : State} (hu : u.Placed) :
      (u.modifyTrack t fun tr => tr.configured group policy started retired).Placed :=
    hu.modifyTrack t _ rfl rfl (hu.fits t)
  unfold State.enableTrack
  split
  · rename_i hst
    exact (h.modifyTrack t (fun tr => { tr.configured group policy started retired with state := .idle }) rfl
      (Track.activePage_eq hst).symm ⟨nofun, nofun, nofun⟩).congr rfl rfl
  iterate 2
    · exact (configured (h.congr (s' := s.restLines (s.tracks[t].group &&& ~~~group)) rfl rfl)).congr rfl rfl
  · exact (configured h).congr rfl rfl
  · exact (configured h).congr rfl rfl
  iterate 2 · exact h.modifyTrack t _ rfl rfl hfit

theorem configureTrack (track enable policy options : Byte) (group rest : LineSet) :
    (answerConfigureTrack track enable policy options group rest s).1.Placed := by
  unfold answerConfigureTrack
  split
  · exact h
  rename_i t _
  dsimp only
  split
  · split
    · exact h
    · rename_i hfree
      simp only [Bool.or_eq_true, not_or, Bool.not_eq_true, Bool.not_eq_false', List.isEmpty_iff] at hfree
      exact h.disableTrack t hfree.1 hfree.2
  split
  · exact h
  split
  · exact h
  split
  · exact h
  split
  · exact h
  · exact h.enableTrack t _ _ _ _ _

/-- A SEALED page joins the tail of a queue that may take it (R57). -/
theorem queuePage (page track : Byte) : (answerQueuePage page track s).1.Placed := by
  unfold answerQueuePage
  split
  · exact h
  · exact h
  rename_i p t _ _
  split
  · exact h
  rename_i htakes
  split
  iterate 4 · exact h
  rename_i hsealed
  split
  · exact h
  split
  · exact h
  have hs := h.stands p
  have hnot : p ∉ s.tracks[t].queue := fun hp => by
    rw [((hs.queued t).mp hp).1] at hsealed
    cases hsealed
  have hoff : s.pages[p].owner = none := hs.owned.mpr (by rw [hsealed]; exact ⟨nofun, nofun⟩)
  dsimp only
  refine h.move p t _ _ ?_ ?_ (fun q hq => ?_) (fun q _ => Iff.rfl) ?_ ?_ ?_ (.inl hoff) (.inr rfl)
  · exact List.nodup_append.mpr ⟨h.queueOnce t, by simp, by simpa using fun q hq => (by rintro rfl; exact hnot hq)⟩
  · refine ⟨fun hd => ?_, fun _ _ => by simp, fun _ _ => by simp⟩
    rw [show s.tracks[t].state = .disabled from hd] at htakes
    exact absurd rfl htakes
  · simp [hq]
  · simp
  · refine ⟨fun ha => ?_, fun hx => by cases hx.1⟩
    rw [((hs.active t).mp ha).1] at hsealed
    cases hsealed
  · exact ⟨nofun, fun hx => absurd rfl hx.1⟩

/-- A start arms an IDLE track whose queue holds a page (R62). -/
theorem startTrack (track options : Byte) (form : Except Status StartForm) {effect : State → State}
    (he : (effect s).Placed) (ht : (effect s).tracks = s.tracks) : (startTrack track options form effect s).1.Placed := by
  unfold Machine.startTrack
  split
  · exact h
  rename_i t _
  split
  · rename_i hidle
    split
    · exact h
    rename_i hq
    split
    · exact h
    split
    · exact h
    · refine he.setTrackState t _ ?_ ?_ <;> rw [ht]
      · exact (Track.activePage_eq hidle).symm
      · exact ⟨nofun, fun _ _ => by simpa using hq, nofun⟩
  all_goals exact h

theorem takeFiring (k : TriggerId) : (State.takeFiring k s).Placed := by
  unfold State.takeFiring
  split
  · exact h.consume k
  all_goals exact h

/-- Stop Track ABORT: the active page, if any, is retired, and the track comes to IDLE (R71). -/
theorem abortTrack (t : TrackId) : (s.abortTrack t).Placed := by
  have ha := h.applyPending t
  have hstate := s.applyPending_activePage t t
  have hsettled : (((s.applyPending t).abortPage t).settle t .idle).Placed := by
    unfold State.abortPage
    split
    · rename_i p hp
      exact ha.retire_settle t (Track.activePage_playing hp) .aborted .idle rfl ⟨nofun, nofun, nofun⟩
    · rename_i p g hp
      exact ha.retire_settle t (Track.activePage_stalled hp) .aborted .idle rfl ⟨nofun, nofun, nofun⟩
    · rename_i hplaying hstalled
      refine ha.settle t ?_ .idle rfl ⟨nofun, nofun, nofun⟩
      rw [Track.activePage]
      cases hst : ((s.applyPending t).tracks[t]).state with
      | playing p => exact absurd hst (hplaying p)
      | stalled p g => exact absurd hst (hstalled p g)
      | _ => rfl
  exact hsettled.congr rfl rfl

theorem stopAbort (track : Byte) : (answerStopAbort track s).1.Placed := by
  unfold answerStopAbort
  split
  · exact h
  rename_i t _
  split
  iterate 2 · exact h
  all_goals exact (h.abortTrack t).congr (by simp [State.stopAbort]) (by simp [State.stopAbort])

theorem stopEnd (track : Byte) : (answerStopEnd track s).1.Placed := by
  unfold answerStopEnd
  split
  · exact h
  rename_i t _
  have atOnce (ha : s.tracks[t].activePage = none) : (s.stopAtOnce t).Placed :=
    (h.settle t ha .idle rfl ⟨nofun, nofun, nofun⟩).congr (by simp [State.stopAtOnce]) (by simp [State.stopAtOnce])
  split
  iterate 2
    · split
      · exact h
      split
      · exact h
      · dsimp only
        exact h.modifyTrack t _ rfl rfl (h.fits t)
  · rename_i hst
    exact h.cancelStart t (Track.activePage_armed hst) _
  · rename_i hst
    exact atOnce (Track.activePage_holding hst)
  · rename_i hst
    exact atOnce (Track.activePage_eq hst)
  iterate 2 · exact h

theorem holdTrack (track : Byte) : (answerHoldTrack track s).1.Placed := by
  unfold answerHoldTrack
  split
  · exact h
  rename_i t _
  dsimp only
  split
  iterate 3
    · split
      · exact h
      · dsimp only
        exact h.modifyTrack t _ rfl rfl (h.fits t)
  all_goals exact h

theorem releaseTrackAnswer (track : Byte) : (answerReleaseTrack track s).1.Placed := by
  unfold answerReleaseTrack
  split
  · exact h
  rename_i t _
  dsimp only
  split
  · rename_i hst
    split
    · exact h
    rename_i hq
    split
    · exact h
    · exact h.setTrackState t _ (Track.activePage_holding hst).symm ⟨nofun, nofun, fun _ _ => by simpa using hq⟩
  iterate 3
    · split
      · dsimp only
        exact h.modifyTrack t _ rfl rfl (h.fits t)
      · exact h
  all_goals exact h

theorem startOnTrigger (track options trigger : Byte) (time : Stamp) (offset : Word32) :
    (answerStartOnTrigger track options trigger time offset s).1.Placed := by
  unfold answerStartOnTrigger
  split
  · exact h
  split
  · exact h
  · rename_i k _ _
    refine h.startTrack track options _ (h.takeFiring k) ?_
    unfold State.takeFiring
    split <;> simp

/-! ### The other units' answers -/

theorem armTrigger (trigger line sense count flags : Byte) :
    (answerArmTrigger trigger line sense count flags s).1.Placed := by
  have harm (k : TriggerId) (c : TriggerConfig) : (s.arm k c).Placed := by
    unfold State.arm
    split
    · apply State.Placed.queueEventIf
      exact h.congr rfl rfl
    · exact h.congr rfl rfl
  unfold answerArmTrigger
  split
  · split
    · exact h
    split
    iterate 3 · exact h
    split
    · exact h
    · exact harm _ _
  · exact h

theorem disarmTrigger (trigger : Byte) : (answerDisarmTrigger trigger s).1.Placed := by
  unfold answerDisarmTrigger
  split
  · exact h
  split
  · exact h
  all_goals exact h.disarm _

theorem configureLine (line role rest filter capture : Byte) :
    (answerConfigureLine line role rest filter capture s).1.Placed := by
  unfold answerConfigureLine
  split
  · rename_i l c _ _
    split
    · exact h
    split
    · exact h
    split
    · exact h
    · exact State.Placed.acceptUnfiltered (h.congr (s' := s.setLine l role.toNat (rest == 1) filter c) rfl rfl) l
  · exact h

theorem openSession (keepalive : Word16) : (answerOpenSession keepalive s).1.Placed := by
  unfold answerOpenSession
  split
  · exact h
  · refine State.Placed.congr (s := if s.isOpen then s.endSession.answerDeferred else s) ?_ rfl rfl
    split
    · exact h.endSession.answerDeferred
    · exact h

theorem ackEvents (seq : Word16) : (answerAckEvents seq s).1.Placed := by
  unfold answerAckEvents
  split
  · split
    · exact h.congr (State.removeEvents_pages s _) (State.removeEvents_tracks s _)
    · exact h
  · exact h
  · exact h

theorem setTick (divider : Byte) : (answerSetTick divider s).1.Placed := by
  unfold answerSetTick
  iterate 4
    split
    · exact h
  dsimp only
  split
  · exact h
  · exact h.congr rfl rfl

theorem readJournal (ack : Word16) (maximum reserved : Byte) (wait : Word16) :
    (answerReadJournal ack maximum reserved wait s).1.Placed := by
  unfold answerReadJournal
  dsimp only
  iterate 3
    split
    · exact h
  split
  · split
    · exact h
    · exact h.congr rfl rfl
  · exact h.congr rfl rfl

theorem replayEvents (seq : Word16) : (answerReplayEvents seq s).1.Placed := by
  unfold answerReplayEvents
  split
  · exact h.congr rfl rfl
  all_goals exact h

theorem setReference (interval : Word32) (window : Word16) : (answerSetReference interval window s).1.Placed := by
  unfold answerSetReference
  iterate 2
    split
    · exact h
  exact h.congr rfl rfl

theorem setJournal (watermark : Word16) : (answerSetJournal watermark s).1.Placed := by
  unfold answerSetJournal
  split
  · exact h
  · exact h.congr rfl rfl

theorem startAt (track options trigger : Byte) (time : Stamp) (offset : Word32) :
    (answerStartAt track options trigger time offset s).1.Placed := by
  unfold answerStartAt
  split
  · exact h
  · exact h.startTrack track options _ h rfl

theorem startAfter (track options trigger : Byte) (time : Stamp) (offset : Word32) :
    (answerStartAfter track options trigger time offset s).1.Placed := by
  unfold answerStartAfter
  split
  · exact h
  · exact h.startTrack track options _ h rfl

theorem startAtEpoch (track options trigger : Byte) (time : Stamp) (offset : Word32) :
    (answerStartAtEpoch track options trigger time offset s).1.Placed := by
  unfold answerStartAtEpoch
  split
  · exact h
  · exact h.startTrack track options _ h rfl

theorem flushQueue (track : Byte) : (answerFlushQueue track s).1.Placed := by
  unfold answerFlushQueue
  split
  · exact h
  · rename_i t _
    exact h.flush_afterFlush t

/-- A read changes nothing. -/
theorem reads (track page first trigger : Byte) : (answerReadTrack track s).1.Placed ∧ (answerReadPage page first s).1.Placed ∧
    (answerReadTrigger trigger s).1.Placed := by
  unfold answerReadTrack answerReadPage answerReadTrigger
  refine ⟨?_, ?_, ?_⟩
  · split <;> exact h
  · split
    · exact h
    · split <;> exact h
  · split <;> exact h

/-- Whatever a request's owner answers, pages stay placed. -/
theorem answer (i : Instr) : (ownerOf i s).1.Placed := by
  cases i with
  | openSession tag keepalive => exact h.openSession keepalive
  | closeSession tag => exact h.endSession.answerDeferred
  | resetPart tag => exact h.congr rfl rfl
  | ackEvents tag seq => exact h.ackEvents seq
  | replayEvents tag seq => exact h.replayEvents seq
  | setTick tag divider => exact h.setTick divider
  | setReference tag interval window => exact h.setReference interval window
  | configureLine tag line role rest filter capture => exact h.configureLine line role rest filter capture
  | openPage tag period repeats flags reserved => exact h.openPage period repeats flags reserved
  | appendSteps tag page reserved records => exact h.appendSteps page reserved records
  | sealPage tag page => exact h.sealPage page
  | discardPage tag page => exact h.discardPage page
  | readPage tag page first => exact (h.reads 0 page first 0).2.1
  | configureTrack tag track enable policy options group rest => exact h.configureTrack track enable policy options group rest
  | queuePage tag page track => exact h.queuePage page track
  | flushQueue tag track => exact h.flushQueue track
  | startTrackAt tag track options trigger time offset => exact h.startAt track options trigger time offset
  | startTrackAfter tag track options trigger time offset => exact h.startAfter track options trigger time offset
  | startTrackOnTrigger tag track options trigger time offset => exact h.startOnTrigger track options trigger time offset
  | startTrackAtEpoch tag track options trigger time offset => exact h.startAtEpoch track options trigger time offset
  | stopTrackAbort tag track => exact h.stopAbort track
  | stopTrackEnd tag track => exact h.stopEnd track
  | holdTrack tag track => exact h.holdTrack track
  | releaseTrack tag track => exact h.releaseTrackAnswer track
  | readTrack tag track => exact (h.reads track 0 0 0).1
  | armTrigger tag trigger line sense count flags => exact h.armTrigger trigger line sense count flags
  | disarmTrigger tag trigger => exact h.disarmTrigger trigger
  | readTrigger tag trigger => exact (h.reads 0 0 0 trigger).2.2
  | readJournal tag ack maximum reserved wait => exact h.readJournal ack maximum reserved wait
  | setJournal tag watermark => exact h.setJournal watermark
  | _ => exact h

end State.Placed

/-- Pages stay placed under every operation of a step. -/
theorem State.placed_invariant : State.Invariant State.Placed where
  pending _ _ h := h.congr rfl rfl
  choices _ _ h := h.congr rfl rfl
  advance s n h := h.congr (s.advance_pages n) (s.advance_tracks n)
  assemble _ _ _ _ h := h.congr rfl rfl
  linkFault _ _ h := h.congr (by simp) (by simp)
  restartSilence _ h := h.congr (by simp) (by simp)
  byteDropped _ h := h.congr rfl rfl
  byteTaken _ _ _ h := h.congr rfl rfl
  pushReply _ _ _ h := h.congr rfl rfl
  cacheReply _ _ h := h.congr (by simp) (by simp)
  execute s f i _ _ _ h := (h.answer i).congr (s.execute_pages f _).1 (s.execute_pages f _).2
  send _ _ h := h.congr rfl rfl
  noticeTaken _ _ h := h.congr rfl rfl
  replyTaken _ _ _ _ h := h.congr rfl rfl
  eventTaken _ _ _ _ h := h.congr rfl rfl
  resetReplyTaken _ h := h.congr rfl rfl
  loseLink _ h := h.loseLink
  beginReset _ _ _ := State.reset_placed.congr rfl rfl
  endReset _ _ h := h.congr rfl rfl
  endStartUp _ h := h.congr rfl rfl
  freshSample _ h := h.congr rfl rfl
  showLevel _ _ _ h := h.congr rfl rfl
  joinSample _ _ h := h.congr rfl rfl
  acceptEdge _ l h := h.acceptEdge l
  pulse _ h := h.pulse
  missPulse _ h := h.missPulse
  discardFiring _ _ h := by
    unfold State.discardFiring
    split
    · exact h.congr rfl rfl
    · exact h
  endGate _ t h := h.endGate t
  resumeReleased _ t h := h.resumeReleased t
  expireRead _ h := by
    unfold State.expireRead
    split
    · exact h
    · exact h.congr (by simp) (by simp)
  startEffect _ t h := h.startEffect t
  releaseEffect _ t h := h.releaseEffect t
  trackActions _ t h := h.trackActions t

/-- Settles O57: placement is an invariant of the operations of a step. -/
theorem stepsKeepPagesPlaced : Obligations.StepsKeepPagesPlaced :=
  fun _ _ h ht => State.placed_invariant.step h ht

end Sys2Proof.Machine
end

section
namespace Sys2Proof.Machine

/-! ### The event queue's shape -/

/-- Counting one more lost event changes neither an entry's number nor whether it is the Events Lost entry, and marks none as
sent. -/
theorem Entry.countLost_keeps (e : Entry) :
    e.countLost.seq = e.seq ∧ e.countLost.isLost = e.isLost ∧ (e.countLost.sent = true → e.sent = true) ∧
      (e.isLost = false → e.countLost = e) := by
  obtain ⟨seq, event, sent⟩ := e
  cases event with
  | eventsLost n =>
    unfold Entry.countLost
    dsimp only
    split <;> simp [Entry.isLost]
  | _ => simp [Entry.countLost, Entry.isLost]

namespace EventUnit.WellFormed

variable {u : EventUnit} (h : u.WellFormed)
include h

/-- A queue that holds no Events Lost entry takes one more entry. -/
theorem append (hnone : u.queue.any Entry.isLost = false) (e : Event)
    (hord : u.queue.countP (!·.isLost) + (if (Entry.mk u.next e false).isLost then 0 else 1) ≤ Config.ordinaryEvents) :
    (EventUnit.mk (u.queue ++ [⟨u.next, e, false⟩]) (u.next + 1)).WellFormed := by
  have hget (i : Nat) (x : Entry) (hx : (u.queue ++ [(⟨u.next, e, false⟩ : Entry)])[i]? = some x) :
      u.queue[i]? = some x ∨ (i = u.queue.length ∧ x = ⟨u.next, e, false⟩) := by
    rw [List.getElem?_append] at hx
    split at hx
    · exact .inl hx
    · simp only [List.getElem?_singleton] at hx
      split at hx
      · exact .inr ⟨by omega, (Option.some.inj hx).symm⟩
      · cases hx
  have hlt {i : Nat} {x : Entry} (hx : u.queue[i]? = some x) : i < u.queue.length :=
    (List.getElem?_eq_some_iff.mp hx).1
  constructor
  · rw [List.countP_append]
    refine le_trans (Nat.add_le_add_left ?_ _) hord
    cases hl : (Entry.mk u.next e false).isLost <;> simp [hl]
  · intro i x hx hl
    rcases hget i x hx with hx | ⟨rfl, -⟩
    · have := List.any_eq_false.mp hnone x (List.mem_of_getElem? hx)
      exact absurd hl this
    · simp
  · intro i x hx
    rw [List.length_append, List.length_singleton]
    rcases hget i x hx with hx | ⟨rfl, rfl⟩
    · have := hlt hx
      rw [h.consecutive i x hx, show u.queue.length + 1 - i = (u.queue.length - i) + 1 by omega, BitVec.ofNat_add]
      dsimp only
      bv_omega
    · rw [Nat.add_sub_cancel_left]
      dsimp only
      bv_omega
  · intro i j x y hij hx hy hsent
    rcases hget j y hy with hy | ⟨-, rfl⟩
    · rcases hget i x hx with hx | ⟨rfl, -⟩
      · exact h.sentOldest i j x y hij hx hy hsent
      · have := hlt hy; omega
    · cases hsent

/-- Storing an event keeps the shape: it is counted in the Events Lost entry, appended, or opens that entry (R150, R151). -/
theorem store (e : Event) (he : (Entry.mk u.next e false).isLost = false) : (u.store e).WellFormed := by
  unfold EventUnit.store
  split
  · have hget (i : Nat) (x : Entry) (hx : (u.queue.map Entry.countLost)[i]? = some x) :
        ∃ y, u.queue[i]? = some y ∧ x = y.countLost := by
      rw [List.getElem?_map, Option.map_eq_some_iff] at hx
      exact hx.imp fun y hy => ⟨hy.1, hy.2.symm⟩
    constructor
    · have hcongr : (fun x : Entry => !x.isLost) ∘ Entry.countLost = fun x => !x.isLost := by
        funext x; simp [x.countLost_keeps.2.1]
      rw [List.countP_map, hcongr]
      exact h.ordinary
    · intro i x hx hl
      obtain ⟨y, hy, rfl⟩ := hget i x hx
      rw [y.countLost_keeps.2.1] at hl
      rw [List.length_map]
      exact h.lostNewest i y hy hl
    · intro i x hx
      obtain ⟨y, hy, rfl⟩ := hget i x hx
      rw [y.countLost_keeps.1, List.length_map]
      exact h.consecutive i y hy
    · intro i j x z hij hx hz hsent
      obtain ⟨y, hy, rfl⟩ := hget i x hx
      obtain ⟨w, hw, rfl⟩ := hget j z hz
      have hold := h.sentOldest i j y w hij hy hw (w.countLost_keeps.2.2.1 hsent)
      have hlost : y.isLost = false := by
        by_contra hl
        have := h.lostNewest i y hy (by simpa using hl)
        have := (List.getElem?_eq_some_iff.mp hw).1
        omega
      rw [y.countLost_keeps.2.2.2 hlost]
      exact hold
  · rename_i hany
    have hnone : u.queue.any Entry.isLost = false := by simpa using hany
    split
    · rename_i hroom
      refine h.append hnone e ?_
      rw [he, if_neg (by decide)]
      have := List.countP_le_length (p := fun x : Entry => !x.isLost) (l := u.queue)
      omega
    · exact h.append hnone _ h.ordinary

/-- The oldest entries may leave. -/
theorem drop (n : Nat) : (EventUnit.mk (u.queue.drop n) u.next).WellFormed := by
  have hget (i : Nat) (x : Entry) (hx : (u.queue.drop n)[i]? = some x) : u.queue[n + i]? = some x := by
    rwa [List.getElem?_drop] at hx
  constructor
  · exact le_trans ((List.drop_sublist n u.queue).countP_le) h.ordinary
  · intro i x hx hl
    have := h.lostNewest _ x (hget i x hx) hl
    rw [List.length_drop]
    omega
  · intro i x hx
    have := h.consecutive _ x (hget i x hx)
    rw [List.length_drop, this]
    congr 2
    omega
  · intro i j x y hij hx hy
    exact h.sentOldest _ _ x y (by omega) (hget i x hx) (hget j y hy)

/-- Entries that change their sent flags alone keep the shape, as long as every sent one stays older than every unsent one. -/
theorem resent (queue : List Entry) (hmap : queue.map (fun e => (e.seq, e.event)) = u.queue.map fun e => (e.seq, e.event))
    (hsent : ∀ (i j : Nat) (e f : Entry), i < j → queue[i]? = some e → queue[j]? = some f → f.sent = true → e.sent = true) :
    (EventUnit.mk queue u.next).WellFormed := by
  have hlen : queue.length = u.queue.length := by simpa using congrArg List.length hmap
  have hget (i : Nat) (x : Entry) (hx : queue[i]? = some x) :
      ∃ y, u.queue[i]? = some y ∧ y.seq = x.seq ∧ y.isLost = x.isLost := by
    have hi := congrArg (·[i]?) hmap
    simp only [List.getElem?_map, hx, Option.map_some] at hi
    obtain ⟨y, hy, heq⟩ := Option.map_eq_some_iff.mp hi.symm
    obtain ⟨hseq, hevent⟩ := Prod.mk.inj heq
    exact ⟨y, hy, hseq, by unfold Entry.isLost; rw [hevent]⟩
  constructor
  · have hcount (l : List Entry) : l.countP (!·.isLost) =
        (l.map fun e => (e.seq, e.event)).countP (fun x => !(Entry.mk x.1 x.2 false).isLost) := by
      rw [List.countP_map]; rfl
    rw [hcount, hmap, ← hcount]
    exact h.ordinary
  · intro i x hx hl
    obtain ⟨y, hy, -, hlost⟩ := hget i x hx
    rw [hlen]
    exact h.lostNewest i y hy (hlost.trans hl)
  · intro i x hx
    obtain ⟨y, hy, hseq, -⟩ := hget i x hx
    rw [hlen, ← hseq]
    exact h.consecutive i y hy
  · exact hsent

end EventUnit.WellFormed

/-- What the arbiter takes is the oldest unsent entry, which it marks as sent (R153). -/
theorem takeUnsent_split {queue queue' : List Entry} {e : Entry} (h : takeUnsent queue = some (e, queue')) :
    ∃ before after : List Entry, queue = before ++ e :: after ∧ queue' = before ++ { e with sent := true } :: after ∧
      (∀ x ∈ before, x.sent = true) ∧ e.sent = false := by
  induction queue generalizing queue' with
  | nil => cases h
  | cons x rest ih =>
    rw [takeUnsent] at h
    split at h
    · rename_i hx
      obtain ⟨⟨e', rest'⟩, hr, heq⟩ := Option.map_eq_some_iff.mp h
      obtain ⟨rfl, rfl⟩ := Prod.mk.inj heq
      obtain ⟨before, after, rfl, rfl, hbefore, he⟩ := ih hr
      exact ⟨x :: before, after, rfl, rfl, by simpa [hx] using hbefore, he⟩
    · rename_i hx
      cases h
      exact ⟨[], rest, rfl, rfl, by simp, by simpa using hx⟩

theorem EventUnit.WellFormed.take {u : EventUnit} (h : u.WellFormed) {e : Entry} {queue : List Entry}
    (ht : takeUnsent u.queue = some (e, queue)) : (EventUnit.mk queue u.next).WellFormed := by
  obtain ⟨before, after, hq, rfl, hbefore, he⟩ := takeUnsent_split ht
  refine h.resent _ (by simp [hq]) fun i j x y hij hx hy hsent => ?_
  rcases lt_trichotomy i before.length with hi | rfl | hi
  · rw [List.getElem?_append_left hi] at hx
    exact hbefore x (List.mem_of_getElem? hx)
  · simp at hx
    rw [← hx]
  · have hshift (z : Entry) : (before ++ z :: after)[j]? = after[j - (before.length + 1)]? := by
      rw [List.getElem?_append_right (by omega), show j - before.length = (j - (before.length + 1)) + 1 by omega,
        List.getElem?_cons_succ]
    rw [hshift] at hy
    have hold := h.sentOldest before.length j e y (by omega) (by simp [hq]) (by rw [hq, hshift, hy]) hsent
    rw [he] at hold
    cases hold

/-- A replay marks a held entry and every later one as unsent (R156). -/
theorem EventUnit.WellFormed.replay {u : EventUnit} (h : u.WellFormed) (n : Nat) :
    (EventUnit.mk (u.queue.take n ++ (u.queue.drop n).map fun e => { e with sent := false }) u.next).WellFormed := by
  refine h.resent _ ?_ fun i j x y hij hx hy hsent => ?_
  · conv_rhs => rw [← List.take_append_drop n u.queue]
    simp [Function.comp_def]
  · have hj : j < (u.queue.take n).length := by
      by_contra hj
      rw [List.getElem?_append_right (by omega), List.getElem?_map] at hy
      obtain ⟨z, -, rfl⟩ := Option.map_eq_some_iff.mp hy
      cases hsent
    rw [List.getElem?_append_left (by omega)] at hx hy
    have hin (k : Nat) (z : Entry) (hz : (u.queue.take n)[k]? = some z) : u.queue[k]? = some z := by
      rw [List.getElem?_take] at hz
      split at hz
      · exact hz
      · cases hz
    exact h.sentOldest i j x y hij (hin i x hx) (hin j y hy) hsent

end Sys2Proof.Machine
end

section
namespace Sys2Proof.Machine

/-! ### The capacities, store by store -/

/-- The pages hold no more steps than they and the step store may, and a FREE page none (R9, R12). -/
structure PoolFits (pages : Vector Page 64) : Prop where
  steps : ∀ p : PageId, pages[p].steps.length ≤ Config.pageSteps
  store : (pages.toList.map (·.steps.length)).sum ≤ Config.stepSlots
  freeEmpty : ∀ p : PageId, pages[p].state = .free → pages[p].steps = []

/-- The link unit's stores hold no more than they may, with `b` replies in the transmit buffer and `d` deferred request slots
held at most (R157, R161, R167, R171, R172). -/
structure Link.Fits (l : Link) (b d : Nat) : Prop where
  fifo : l.fifo.length ≤ Config.fifoBytes
  buffer : l.replies.countP Outgoing.isImmediate ≤ b
  slots : l.awaiting.length + l.replies.countP (!·.isImmediate) ≤ d
  cache : l.cache.length ≤ Config.cacheEntries
  tallies : l.tallies.crc ≤ 65535 ∧ l.tallies.length ≤ 65535 ∧ l.tallies.timeout ≤ 65535 ∧ l.tallies.overrun ≤ 65535

/-- Every store of the part is within its capacity, with `b` and `d` the bounds of the transmit buffer and the deferred request
slots: an operation that takes a place in one of them is one that keeps the law for a bound less by 1. -/
structure State.Within (b d : Nat) (s : State) : Prop where
  clock : isDivider s.divider = true ∧ s.prescale < s.divider
  pool : PoolFits s.pages
  queues : ∀ t : TrackId, s.tracks[t].queue.length ≤ Config.queueDepth
  records : s.journal.records.length ≤ Config.journalRecords
  events : s.events.WellFormed
  closedEvents : s.isOpen = false → s.events.queue = []
  link : s.link.Fits b d

theorem State.withinCapacity_iff (s : State) :
    s.WithinCapacity ↔ s.Within Config.bufferReplies Config.deferredSlots := by
  constructor
  · rintro ⟨hclock, hsteps, hstore, hfree, hqueues, hrecords, hevents, hclosed, hfifo, hbuffer, hslots, hcache, htallies⟩
    exact ⟨hclock, ⟨hsteps, hstore, hfree⟩, hqueues, hrecords, hevents, hclosed, hfifo, hbuffer, hslots, hcache, htallies⟩
  · rintro ⟨hclock, ⟨hsteps, hstore, hfree⟩, hqueues, hrecords, hevents, hclosed, hfifo, hbuffer, hslots, hcache, htallies⟩
    exact ⟨hclock, hsteps, hstore, hfree, hqueues, hrecords, hevents, hclosed, hfifo, hbuffer, hslots, hcache, htallies⟩

/-! ### The step store -/

/-- A sum over a list of which one element is replaced. -/
theorem sum_map_set {α : Type} (g : α → Nat) (l : List α) (i : Nat) (h : i < l.length) (x : α) :
    ((l.set i x).map g).sum + g l[i] = (l.map g).sum + g x := by
  induction l generalizing i with
  | nil => cases h
  | cons a l ih =>
    cases i with
    | zero => simp; omega
    | succ i =>
      have := ih i (Nat.lt_of_succ_lt_succ h)
      simp only [List.set_cons_succ, List.map_cons, List.sum_cons, List.getElem_cons_succ]
      omega

/-- The slots held once one page's record is replaced (R9). -/
theorem usedSlots_set (pages : Vector Page 64) (p : PageId) (x : Page) :
    ((pages.set p x).toList.map (·.steps.length)).sum + pages[p].steps.length =
      (pages.toList.map (·.steps.length)).sum + x.steps.length := by
  rw [Vector.toList_set, ← sum_map_set _ pages.toList p.val (by simp) x, Vector.getElem_toList]
  rfl

/-- A page's record is replaced by one whose steps the page and the store can hold. -/
theorem PoolFits.set {pages : Vector Page 64} (h : PoolFits pages) (p : PageId) (x : Page)
    (hsteps : x.steps.length ≤ Config.pageSteps)
    (hstore : (pages.toList.map (·.steps.length)).sum + x.steps.length ≤ Config.stepSlots + pages[p].steps.length)
    (hfree : x.state = .free → x.steps = []) : PoolFits (pages.set p x) := by
  have hget (q : PageId) : (pages.set p x)[q] = if q = p then x else pages[q] := by
    by_cases hq : q = p
    · subst hq; simp
    · simp [hq, Fin.val_ne_of_ne (Ne.symm hq)]
  constructor
  · intro q
    rw [hget]
    split
    · exact hsteps
    · exact h.steps q
  · have := usedSlots_set pages p x
    omega
  · intro q
    rw [hget]
    split
    · exact hfree
    · exact h.freeEmpty q

/-- A page's record is replaced by one with no more steps than before. -/
theorem PoolFits.shrink {pages : Vector Page 64} (h : PoolFits pages) (p : PageId) (x : Page)
    (hle : x.steps.length ≤ pages[p].steps.length) (hfree : x.state = .free → x.steps = []) : PoolFits (pages.set p x) :=
  h.set p x (hle.trans (h.steps p)) (Nat.add_le_add h.store hle) hfree

theorem PoolFits.cleared : PoolFits (Vector.replicate 64 Page.cleared) where
  steps p := by simp [Page.cleared]
  store := by decide +kernel
  freeEmpty p _ := by simp [Page.cleared]

/-! ### The link unit -/

theorem Tallies.count_le (t : Tallies) (k : LinkFaultKind)
    (h : t.crc ≤ 65535 ∧ t.length ≤ 65535 ∧ t.timeout ≤ 65535 ∧ t.overrun ≤ 65535) :
    (t.count k).crc ≤ 65535 ∧ (t.count k).length ≤ 65535 ∧ (t.count k).timeout ≤ 65535 ∧ (t.count k).overrun ≤ 65535 := by
  obtain ⟨h1, h2, h3, h4⟩ := h
  cases k <;> simp [Tallies.count, raised, h1, h2, h3, h4]

/-- A reply that takes its place behind the others counts in the buffer or among the slots. -/
theorem countP_replies (replies : List Outgoing) (o : Outgoing) :
    (replies ++ [o]).countP Outgoing.isImmediate = replies.countP Outgoing.isImmediate + o.isImmediate.toNat ∧
      (replies ++ [o]).countP (!·.isImmediate) = replies.countP (!·.isImmediate) + (!o.isImmediate).toNat := by
  rw [List.countP_append, List.countP_append]
  cases o <;> exact ⟨rfl, rfl⟩

/-- A reply put into its deferred slot takes the place of the request that held it. -/
theorem Link.Fits.compose {l : Link} {b d : Nat} (h : l.Fits b d) {owner : Owner} {request : Deferred}
    (hf : l.awaiting.find? (·.owner == owner) = some request) (reply : Reply) :
    Link.Fits { l with
      awaiting := l.awaiting.filter (·.owner != owner), replies := l.replies ++ [.deferred reply true] } b d where
  fifo := h.fifo
  buffer := (countP_replies _ _).1 ▸ h.buffer
  slots := by
    have hlt : (l.awaiting.filter (·.owner != owner)).length < l.awaiting.length := by
      refine List.length_filter_lt_length_iff_exists.mpr ⟨request, List.mem_of_find?_eq_some hf, ?_⟩
      simpa using List.find?_some hf
    have := h.slots
    rw [(countP_replies _ _).2]
    change (l.awaiting.filter (·.owner != owner)).length + (_ + 1) ≤ d
    omega
  cache := h.cache
  tallies := h.tallies

/-- The bounds of the buffer and the slots may be replaced by what is held. -/
theorem Link.Fits.rebound {l : Link} {b d b' d' : Nat} (h : l.Fits b d)
    (hb : l.replies.countP Outgoing.isImmediate ≤ b') (hd : l.awaiting.length + l.replies.countP (!·.isImmediate) ≤ d') :
    l.Fits b' d' :=
  { h with buffer := hb, slots := hd }

namespace State.Within

variable {b d : Nat} {s : State} (h : s.Within b d)
include h

/-! ### Operations of the records -/

theorem queueEvent (e : Event) (he : ∀ seq, (Entry.mk seq e false).isLost = false) : (s.queueEvent e).Within b d := by
  unfold State.queueEvent
  split
  · rename_i hopen
    exact { h with events := h.events.store e (he _), closedEvents := fun hc => absurd (hopen.symm.trans hc) nofun }
  · exact h

theorem queueEventIf (wanted : Bool) (e : Event) (he : ∀ seq, (Entry.mk seq e false).isLost = false) :
    (s.queueEventIf wanted e).Within b d := by
  unfold State.queueEventIf
  split
  · exact h.queueEvent e he
  · exact h

theorem modifyTrack (t : TrackId) (f : Track → Track) (hq : (f s.tracks[t]).queue.length ≤ Config.queueDepth) :
    (s.modifyTrack t f).Within b d :=
  { h with
    queues := fun u => by
      rw [State.modifyTrack_get]
      split
      · rename_i hu; subst hu; exact hq
      · exact h.queues u }

theorem setTrackState (t : TrackId) (st : TrackState) : (s.setTrackState t st).Within b d :=
  h.modifyTrack t _ (h.queues t)

theorem settle (t : TrackId) (st : TrackState) : (s.settle t st).Within b d := h.modifyTrack t _ (h.queues t)

theorem modifyPage (p : PageId) (f : Page → Page) (hle : (f s.pages[p]).steps.length ≤ s.pages[p].steps.length)
    (hfree : (f s.pages[p]).state = .free → (f s.pages[p]).steps = []) : (s.modifyPage p f).Within b d :=
  { h with pool := h.pool.shrink p _ hle hfree }

theorem leave (p : PageId) : (s.modifyPage p Page.leave).Within b d := by
  refine h.modifyPage p _ ?_ ?_
  · unfold Page.leave
    split
    · exact le_rfl
    · exact Nat.zero_le _
  · unfold Page.leave
    split
    · nofun
    · exact fun _ => rfl

theorem mapLines (m : LineSet) (f : LineId → Line → Line) : (s.mapLines m f).Within b d := { h with }
theorem modifyLine (l : LineId) (f : Line → Line) : (s.modifyLine l f).Within b d := { h with }
theorem modifyTrigger (k : TriggerId) (f : Trigger → Trigger) : (s.modifyTrigger k f).Within b d := { h with }
theorem setLatch (k : TriggerId) (latch : Latch) : (s.setLatch k latch).Within b d := { h with }
theorem reference (r : Reference) : State.Within b d { s with reference := r } := { h with }
theorem choices (n : Nat) : State.Within b d { s with choices := n } := { h with }

theorem compose (owner : Owner) (status : Status) (fields : List Byte) : (s.compose owner status fields).Within b d := by
  unfold State.compose
  split
  · exact h
  · rename_i request hf
    exact { h with link := h.link.compose hf _ }

theorem composeAborted (owner : Owner) : (s.composeAborted owner).Within b d := h.compose owner _ _

theorem consume (k : TriggerId) : (s.consume k).Within b d := by
  unfold State.consume
  split
  · exact h.setLatch k _
  · split
    · exact h.modifyTrigger k _
    · exact h.setLatch k _

/-! ### The link unit -/

theorem reportLinkFault : s.reportLinkFault.Within b d := by
  have hq := h.queueEvent (.linkFault s.link.tallies) fun _ => rfl
  unfold State.reportLinkFault
  dsimp only
  split
  · exact { hq with link := { hq.link with tallies := ⟨Nat.zero_le _, Nat.zero_le _, Nat.zero_le _, Nat.zero_le _⟩ } }
  · exact hq

theorem linkFault (k : LinkFaultKind) : (s.linkFault k).Within b d := by
  have hcounted : State.Within b d { s with link := { s.link with tallies := s.link.tallies.count k } } :=
    { h with link := { h.link with tallies := Tallies.count_le _ k h.link.tallies } }
  unfold State.linkFault
  dsimp only
  split
  · exact hcounted.reportLinkFault
  · exact hcounted

theorem assemble (fifo : List Byte) (a : Assembler) (hle : fifo.length ≤ s.link.fifo.length) :
    (s.assemble fifo a).Within b d :=
  { h with link := { h.link with fifo := hle.trans h.link.fifo } }

theorem restartSilence : s.restartSilence.Within b d := by
  unfold State.restartSilence
  split <;> exact { h with }

theorem cacheReply (r : Reply) : (s.cacheReply r).Within b d := by
  unfold State.cacheReply
  split
  · refine { h with link := { h.link with cache := ?_ } }
    have := h.link.cache
    rw [List.length_append, List.length_drop, List.length_singleton]
    unfold Config.cacheEntries at *
    omega
  · exact h

omit h in
/-- An immediate reply takes one place of the buffer (R167). -/
theorem pushReply (h : s.Within b d) (r : Reply) : (s.pushReply r).Within (b + 1) d := by
  obtain ⟨hbuffer, hslots⟩ := countP_replies s.link.replies (.immediate r)
  refine { h with link := { h.link with buffer := ?_, slots := ?_ } }
  · exact hbuffer ▸ Nat.succ_le_succ h.link.buffer
  · exact hslots ▸ h.link.slots

/-- A deferred request takes one slot (R172). -/
theorem defer (owner : Owner) (tag : Byte) : (s.defer owner tag).Within b (d + 1) := by
  refine { h with link := { h.link with slots := ?_ } }
  have hlen : (s.link.awaiting ++ [(⟨owner, tag⟩ : Deferred)]).length = s.link.awaiting.length + 1 := List.length_append
  have := h.link.slots
  change (s.link.awaiting ++ [(⟨owner, tag⟩ : Deferred)]).length + s.link.replies.countP (!·.isImmediate) ≤ d + 1
  omega

/-- The bounds may be replaced by what is held. -/
theorem rebound {b' d' : Nat} (hb : s.buffered ≤ b') (hd : s.heldSlots ≤ d') : s.Within b' d' :=
  { h with link := h.link.rebound hb hd }

/-! ### Tracks and pages -/

theorem applyPending (t : TrackId) : (s.applyPending t).Within b d := by
  unfold State.applyPending
  split
  · exact h
  · exact (h.mapLines _ _).modifyTrack t _ (h.queues t)

theorem retire (t : TrackId) (p : Playback) (o : RetireOutcome) : (s.retire t p o).Within b d :=
  (h.leave p.page).queueEventIf _ _ fun _ => rfl

theorem makeActive (t : TrackId) (start : Stamp) (late : Bool) : (s.makeActive t start late).Within b d := by
  cases hq : s.tracks[t].queue with
  | nil => rwa [State.makeActive_nil hq]
  | cons p rest =>
    rw [State.makeActive_cons hq]
    have hlen := h.queues t
    rw [hq, List.length_cons] at hlen
    refine State.Within.queueEventIf (State.Within.modifyTrack ?_ t _ (Nat.le_of_succ_le hlen)) _ _ fun _ => rfl
    exact h.modifyPage p _ le_rfl nofun

theorem applyRest (t : TrackId) : (s.applyRest t).Within b d := { h with }

theorem gateFault (t : TrackId) (p : Playback) (k : TriggerId) (report : Bool) (stall : Stamp) :
    (s.gateFault t p k report stall).Within b d :=
  ((((((h.queueEventIf _ _ fun _ => rfl).applyPending t).retire t p _).composeAborted _).settle t _).applyRest t).queueEvent _
    fun _ => rfl

theorem reachGate (t : TrackId) (p : Playback) (index : Nat) (offset : Word32) (k : TriggerId) (timeout : Word32)
    (action : GateAction) (report : Bool) : (s.reachGate t p index offset k timeout action report).Within b d := by
  unfold State.reachGate
  split
  · exact (h.consume k).queueEventIf _ _ fun _ => rfl
  · split
    · exact h.queueEventIf _ _ fun _ => rfl
    · exact h.gateFault t p k report 0
  all_goals exact h.setTrackState t _

theorem takeStep (t : TrackId) (p : Playback) (st : Step) : (s.takeStep t p st).Within b d := by
  cases st with
  | drive offset lines levels => exact (h.mapLines _ _).setTrackState t _
  | toggle offset lines => exact (h.mapLines _ _).setTrackState t _
  | pulse offset lines level width => exact (h.mapLines _ _).setTrackState t _
  | mark offset code => exact (h.setTrackState t _).queueEvent _ fun _ => rfl
  | gate offset k timeout action report => exact (h.setTrackState t _).reachGate t _ _ _ _ _ _ _

theorem takeSteps (t : TrackId) (pageTime : Nat) (sts : List Step) : (State.takeSteps t pageTime sts s).Within b d := by
  induction sts generalizing s with
  | nil => exact h
  | cons st rest ih =>
    unfold State.takeSteps
    split
    · split
      · exact ih (h.takeStep t _ st)
      · exact h
    · exact h

theorem playFrom (t : TrackId) (pageTime : Nat) : (s.playFrom t pageTime).Within b d := by
  unfold State.playFrom
  split
  · exact h.takeSteps t pageTime _
  · exact h

theorem pulsesDue (t : TrackId) (p : Playback) (pageTime : Nat) : (s.pulsesDue t p pageTime).Within b d :=
  State.Within.setTrackState (foldl_keeps (P := State.Within b d) (fun _ _ h => h.mapLines _ _) _ s h) t _

theorem underrun (t : TrackId) (p : Playback) : (s.underrun t p).Within b d := by
  have hretired (st : TrackState) := (h.retire t p .complete).settle t st
  unfold State.underrun
  split
  · exact (hretired _).queueEvent _ fun _ => rfl
  · exact (((hretired _).applyRest t).queueEvent _ fun _ => rfl).queueEvent _ fun _ => rfl
  · exact ((hretired _).applyRest t).queueEvent _ fun _ => rfl
  · exact State.Within.queueEventIf (h.modifyTrack t _ (h.queues t)) _ _ fun _ => rfl

theorem runEnd (t : TrackId) (p : Playback) : (s.runEnd t p).Within b d := by
  have ha := h.applyPending t
  have hr := ha.retire t p .complete
  unfold State.runEnd
  dsimp only
  split
  · exact (((hr.settle t _).applyRest t).compose _ _ _).queueEvent _ fun _ => rfl
  split
  · exact (hr.settle t _).queueEvent _ fun _ => rfl
  split
  · exact hr.makeActive t _ _
  · exact ha.underrun t p

theorem boundary (t : TrackId) (p : Playback) : (s.boundary t p).Within b d := by
  unfold State.boundary
  dsimp only
  split
  · exact h.setTrackState t _
  · exact h.runEnd t _

theorem trackActions (t : TrackId) : (s.trackActions t).Within b d := by
  unfold State.trackActions
  split
  · rename_i p _
    have hs' := h.pulsesDue t p (s.nextPoint p)
    dsimp only
    split
    · exact (hs'.boundary t _).playFrom t 0
    · exact hs'.playFrom t _
  · exact h

theorem resumePage (t : TrackId) (p : Playback) (g : GateWait) (o : GateOutcome) : (s.resumePage t p g o).Within b d :=
  ((h.setTrackState t _).queueEventIf _ _ fun _ => rfl).playFrom t _

theorem endGate (t : TrackId) : (s.endGate t).Within b d := by
  unfold State.endGate
  split
  · split
    · exact h.resumePage t _ _ _
    · exact h.gateFault t _ _ _ _
  · exact h

theorem resumeReleased (t : TrackId) : (s.resumeReleased t).Within b d := by
  unfold State.resumeReleased
  split
  · exact h.resumePage t _ _ _
  · exact h

theorem startEffect (t : TrackId) : (s.startEffect t).Within b d := by
  unfold State.startEffect
  split
  · exact ((h.makeActive t _ _).compose _ _ _).playFrom t 0
  · exact h

theorem releaseEffect (t : TrackId) : (s.releaseEffect t).Within b d := by
  unfold State.releaseEffect
  split
  · exact (h.makeActive t _ _).playFrom t 0
  · exact h

theorem cancelStart (t : TrackId) (r : CancelReason) : (s.cancelStart t r).Within b d :=
  ((h.settle t _).composeAborted _).queueEvent _ fun _ => rfl

theorem abortTrack (t : TrackId) : (s.abortTrack t).Within b d := by
  have ha := h.applyPending t
  refine State.Within.applyRest (State.Within.settle ?_ t .idle) t
  unfold State.abortPage
  split
  · exact ha.retire t _ _
  · exact ha.retire t _ _
  · exact ha

theorem flush (t : TrackId) : (s.flush t).Within b d :=
  State.Within.modifyTrack (foldl_keeps (P := State.Within b d) (fun _ p h => h.leave p) _ s h) t _ (Nat.zero_le _)

theorem afterFlush (t : TrackId) : (s.afterFlush t).Within b d := by
  unfold State.afterFlush
  split
  · exact h.cancelStart t _
  · exact (h.setTrackState t _).queueEvent _ fun _ => rfl
  all_goals exact h

/-! ### Firings, edges and the journal -/

theorem fire (k : TriggerId) (g : TriggerConfig) (f c : Stamp) : (s.fire k g f c).Within b d := by
  have hfired := (h.setLatch k (.fired f c false)).queueEventIf g.report
    (.triggerFired k g.line f (s.consumers k).length) fun _ => rfl
  unfold State.fire
  dsimp only
  split
  · exact hfired
  · exact (foldl_keeps (P := State.Within b d) (fun _ t h => h.setTrackState t _) _ _ hfired).consume k

theorem edgeAtTrigger (rising : Bool) (f c : Stamp) (k : TriggerId) : (s.edgeAtTrigger rising f c k).Within b d := by
  unfold State.edgeAtTrigger
  split
  · exact h
  split
  · exact h
  · split
    · exact h.fire k _ f c
    · exact h
  · split
    · exact (h.setLatch k _).queueEvent _ fun _ => rfl
    · exact h
  · split
    · exact h
    · exact h.setLatch k _

theorem noticeJournal : s.noticeJournal.Within b d := by
  unfold State.noticeJournal
  split
  · apply State.Within.queueEvent
    · exact { h with }
    · exact fun _ => rfl
  · exact h

theorem completeRead : s.completeRead.Within b d := by
  unfold State.completeRead
  split
  · exact h
  · apply State.Within.compose
    exact { h with }

theorem recordEdge (l : LineId) (rising : Bool) (f : Stamp) : (s.recordEdge l rising f).Within b d := by
  unfold State.recordEdge
  dsimp only
  split
  · rename_i hroom
    apply State.Within.completeRead
    apply State.Within.noticeJournal
    refine { h with records := ?_ }
    rw [List.length_append, List.length_singleton]
    exact hroom
  split
  · exact { h with }
  · split
    · exact h
    · exact { h with }

theorem acceptEdge (l : LineId) : (s.acceptEdge l).Within b d := by
  unfold State.acceptEdge
  split
  · refine foldl_keeps (P := State.Within b d) (fun _ r h => ?_) _ _ ((h.modifyLine l _).choices _)
    cases r with
    | journal => exact h.recordEdge l _ _
    | trigger k => exact h.edgeAtTrigger _ _ _ k
  · exact h

theorem acceptUnfiltered (l : LineId) : (s.acceptUnfiltered l).Within b d := by
  unfold State.acceptUnfiltered
  split
  · exact State.endSample_keeps (fun _ h => { h with }) (fun _ l h => h.acceptEdge l) h
  · exact h

theorem expireRead : s.expireRead.Within b d := by
  unfold State.expireRead
  split
  · exact h
  · apply State.Within.compose
    exact { h with }

theorem disarm (k : TriggerId) : (s.disarm k).Within b d := by
  refine foldl_keeps (P := State.Within b d) (fun s t h => ?_) _ _ (h.setLatch k .disarmed)
  unfold State.dismiss
  split
  · exact h.cancelStart t _
  · exact h.endGate t
  · exact h

/-! ### The reference unit -/

theorem lossOfLock : s.lossOfLock.Within b d := by
  unfold State.lossOfLock
  exact foldl_keeps (P := State.Within b d) (fun _ t h => h.cancelStart t _) _ _
    ((h.reference _).queueEvent _ fun _ => rfl)

theorem checkPulse : s.checkPulse.Within b d := by
  unfold State.checkPulse
  dsimp only
  split
  · exact h.reference _
  split
  · split
    · exact (h.reference _).queueEvent _ fun _ => rfl
    · exact h.reference _
  · split
    · exact (h.reference _).lossOfLock
    · exact h.reference _

theorem pulse : s.pulse.Within b d := by
  have hreleased {u : State} (hu : u.Within b d) : u.releaseEpoch.Within b d :=
    { hu with queues := fun t => by simpa [State.releaseEpoch] using hu.queues t }
  unfold State.pulse
  apply hreleased
  split
  · exact h.reference _
  · exact (h.reference _).checkPulse

theorem missPulse : s.missPulse.Within b d := by
  unfold State.missPulse
  dsimp only
  split
  · exact (h.reference _).lossOfLock
  · exact h.reference _

/-! ### Session ends and time -/

theorem endSession : s.endSession.Within b d := by
  have hqueue (t : TrackId) : s.endSession.tracks[t].queue.length ≤ Config.queueDepth := by
    rw [State.endSession_track]
    by_cases hd : s.tracks[t].state = .disabled
    · rw [Track.ended_of_disabled hd]; exact h.queues t
    · rw [Track.ended_spec hd]; exact Nat.zero_le _
  rw [State.endSession_frame]
  generalize s.endSession.tracks = tracks at hqueue ⊢
  exact { h with
    pool := PoolFits.cleared, queues := hqueue, events := .of_empty rfl, closedEvents := fun _ => rfl
    link := { h.link with cache := Nat.zero_le _ } }

theorem answerDeferred : s.answerDeferred.Within b d := by
  have hcomposed (owners : List Owner) :=
    foldl_keeps (P := State.Within b d) (fun _ o h => h.composeAborted o) owners _ (h.choices (s.choices + 1))
  have hkind : Outgoing.isImmediate ∘ Outgoing.ofEndedSession = Outgoing.isImmediate := by
    funext o; cases o <;> rfl
  have hkind' : (fun o : Outgoing => !o.isImmediate) ∘ Outgoing.ofEndedSession = fun o => !o.isImmediate := by
    funext o; cases o <;> rfl
  unfold State.answerDeferred
  dsimp only
  have hs := hcomposed (freeOrder Config.abortOrder s.choices (s.link.awaiting.map Deferred.owner))
  refine { hs with link := { hs.link with buffer := ?_, slots := ?_ } }
  · rw [List.countP_map, hkind]; exact hs.link.buffer
  · rw [List.countP_map, hkind']; exact hs.link.slots

theorem discardDeferred : s.discardDeferred.Within b d := by
  refine { h with link := { h.link with buffer := ?_, slots := ?_ } }
  · exact le_trans List.filter_sublist.countP_le h.link.buffer
  · change 0 + (s.link.replies.filter Outgoing.isImmediate).countP (!·.isImmediate) ≤ d
    rw [List.countP_eq_zero.mpr (fun o ho => by simpa using (List.mem_filter.mp ho).2)]
    exact Nat.zero_le d

theorem advance (n : Nat) : (s.advance n).Within b d := by
  unfold State.advance
  split
  · exact h
  · have hpos : 0 < s.divider := Nat.lt_of_le_of_lt (Nat.zero_le _) h.clock.2
    exact { h with clock := ⟨h.clock.1, Nat.mod_lt _ hpos⟩, link := { h.link with } }

end State.Within
end Sys2Proof.Machine
end

section
namespace Sys2Proof.Machine

/-- An Append Steps takes no slot that is not free (R12). -/
theorem State.room_of_freeSlots {s : State} (h : s.usedSlots ≤ Config.stepSlots) {n : Nat} (hn : n ≤ s.freeSlots) :
    s.usedSlots + n ≤ Config.stepSlots := by
  unfold State.freeSlots at hn
  omega

/-- A request that is answered later finds a deferred request slot free (R172). -/
def Answer.finds (s : State) (a : Answer) : Prop := ∀ owner, a = .deferred owner → s.slotFree = true

namespace State.Within

variable {b d : Nat} {s : State} (h : s.Within b d)
include h

/-! ### The page pool's answers -/

theorem openPage (period : Word32) (repeats : Word16) (flags reserved : Byte) :
    (answerOpenPage period repeats flags reserved s).1.Within b d := by
  unfold answerOpenPage
  split
  · exact h
  split
  · exact h
  · dsimp only
    exact h.modifyPage _ _ (Nat.zero_le _) fun _ => rfl

theorem appendSteps (page reserved : Byte) (records : List StepRecord) :
    (answerAppendSteps page reserved records s).1.Within b d := by
  unfold answerAppendSteps
  split
  · exact h
  split
  · exact h
  rename_i p _
  split
  iterate 4 · exact h
  rename_i hopen
  split
  · exact h
  rename_i steps _
  split
  · exact h
  split
  · exact h
  · rename_i hpage hslots
    have hroom := State.room_of_freeSlots h.pool.store (Nat.le_of_not_lt hslots)
    refine { h with pool := h.pool.set p _ ?_ ?_ fun hf => ?_ }
    · rw [List.length_append]
      exact Nat.le_of_not_lt hpage
    · rw [List.length_append]
      unfold State.usedSlots at hroom
      omega
    · rw [hopen] at hf
      cases hf

theorem sealPage (page : Byte) : (answerSealPage page s).1.Within b d := by
  unfold answerSealPage
  split
  · exact h
  dsimp only
  split
  iterate 4 · exact h
  dsimp only
  exact h.modifyPage _ _ le_rfl nofun

theorem discardPage (page : Byte) : (answerDiscardPage page s).1.Within b d := by
  unfold answerDiscardPage
  split
  · exact h
  split
  iterate 3 · exact h
  all_goals
    dsimp only
    exact h.modifyPage _ _ (Nat.zero_le _) fun _ => rfl

/-! ### The track units' answers -/

theorem enableTrack (t : TrackId) (group rest : LineSet) (policy : Policy) (started retired : Bool) :
    (s.enableTrack t group rest policy started retired).Within b d := by
  have configured {u : State} (hu : u.Within b d) :
      (u.modifyTrack t fun tr => tr.configured group policy started retired).Within b d := hu.modifyTrack t _ (hu.queues t)
  unfold State.enableTrack
  split
  · exact ((State.Within.modifyTrack h t _ (h.queues t)).mapLines _ _).mapLines _ _
  iterate 2 · exact ((configured (h.mapLines _ _)).mapLines _ _).mapLines _ _
  · exact ((configured h).mapLines _ _).mapLines _ _
  · exact (configured h).mapLines _ _
  iterate 2 · exact h.modifyTrack t _ (h.queues t)

theorem disableTrack (t : TrackId) : (s.disableTrack t).Within b d := by
  have hrest := h.applyRest t
  exact hrest.modifyTrack t _ (hrest.queues t)

theorem configureTrack (track enable policy options : Byte) (group rest : LineSet) :
    (answerConfigureTrack track enable policy options group rest s).1.Within b d := by
  unfold answerConfigureTrack
  split
  · exact h
  rename_i t _
  dsimp only
  split
  · split
    · exact h
    · exact h.disableTrack t
  split
  · exact h
  iterate 3
    split
    · exact h
  exact h.enableTrack t _ _ _ _ _

theorem queuePage (page track : Byte) : (answerQueuePage page track s).1.Within b d := by
  unfold answerQueuePage
  split
  · exact h
  · exact h
  rename_i p t _ _
  split
  · exact h
  split
  iterate 4 · exact h
  split
  · exact h
  rename_i hroom
  split
  · exact h
  dsimp only
  have hqueued : (s.modifyPage p fun page => { page with state := .queued, owner := some t }).Within b d := h.modifyPage p _ le_rfl nofun
  refine State.Within.modifyTrack hqueued t _ ?_
  rw [List.length_append]
  exact Nat.lt_of_not_le hroom

theorem flushQueue (track : Byte) : (answerFlushQueue track s).1.Within b d := by
  unfold answerFlushQueue
  split
  · exact h
  · exact (h.flush _).afterFlush _

theorem startTrack (track options : Byte) (form : Except Status StartForm) {effect : State → State}
    (he : (effect s).Within b d) :
    (startTrack track options form effect s).1.Within b d ∧ (startTrack track options form effect s).2.finds s := by
  unfold Machine.startTrack
  split
  · exact ⟨h, nofun⟩
  split
  · split
    · exact ⟨h, nofun⟩
    split
    · exact ⟨h, nofun⟩
    split
    · exact ⟨h, nofun⟩
    · rename_i hslot
      refine ⟨he.setTrackState _ _, fun owner ho => ?_⟩
      dsimp only at ho
      split at ho
      · rename_i hreply
        simpa [hreply] using hslot
      · cases ho
  all_goals exact ⟨h, nofun⟩

theorem takeFiring (k : TriggerId) : (State.takeFiring k s).Within b d := by
  unfold State.takeFiring
  split
  · exact h.consume k
  all_goals exact h

theorem startBadValue (track : Byte) : (startBadValue track s).1.Within b d ∧ (startBadValue track s).2.finds s := ⟨h, nofun⟩

theorem startAt (track options trigger : Byte) (time : Stamp) (offset : Word32) :
    (answerStartAt track options trigger time offset s).1.Within b d ∧
      (answerStartAt track options trigger time offset s).2.finds s := by
  unfold answerStartAt
  split
  · exact h.startBadValue track
  · exact h.startTrack track options _ h

theorem startAfter (track options trigger : Byte) (time : Stamp) (offset : Word32) :
    (answerStartAfter track options trigger time offset s).1.Within b d ∧
      (answerStartAfter track options trigger time offset s).2.finds s := by
  unfold answerStartAfter
  split
  · exact h.startBadValue track
  · exact h.startTrack track options _ h

theorem startOnTrigger (track options trigger : Byte) (time : Stamp) (offset : Word32) :
    (answerStartOnTrigger track options trigger time offset s).1.Within b d ∧
      (answerStartOnTrigger track options trigger time offset s).2.finds s := by
  unfold answerStartOnTrigger
  split
  · exact h.startBadValue track
  split
  · exact h.startBadValue track
  · exact h.startTrack track options _ (h.takeFiring _)

theorem startAtEpoch (track options trigger : Byte) (time : Stamp) (offset : Word32) :
    (answerStartAtEpoch track options trigger time offset s).1.Within b d ∧
      (answerStartAtEpoch track options trigger time offset s).2.finds s := by
  unfold answerStartAtEpoch
  split
  · exact h.startBadValue track
  · exact h.startTrack track options _ h

theorem stopAbort (track : Byte) : (answerStopAbort track s).1.Within b d ∧ (answerStopAbort track s).2.finds s := by
  unfold answerStopAbort
  split
  · exact ⟨h, nofun⟩
  split
  iterate 2 · exact ⟨h, nofun⟩
  all_goals exact ⟨(((h.abortTrack _).composeAborted _).composeAborted _).queueEvent _ fun _ => rfl, nofun⟩

theorem stopEnd (track : Byte) : (answerStopEnd track s).1.Within b d ∧ (answerStopEnd track s).2.finds s := by
  unfold answerStopEnd
  split
  · exact ⟨h, nofun⟩
  rename_i t _
  have atOnce : (s.stopAtOnce t).Within b d := ((h.settle t _).applyRest t).queueEvent _ fun _ => rfl
  split
  iterate 2
    · split
      · exact ⟨h, nofun⟩
      split
      · exact ⟨h, nofun⟩
      · rename_i hslot
        refine ⟨?_, fun _ _ => by simpa using hslot⟩
        dsimp only
        exact h.modifyTrack t _ (h.queues t)
  · exact ⟨h.cancelStart t _, nofun⟩
  iterate 2 · exact ⟨atOnce, nofun⟩
  iterate 2 · exact ⟨h, nofun⟩

theorem holdTrack (track : Byte) : (answerHoldTrack track s).1.Within b d ∧ (answerHoldTrack track s).2.finds s := by
  unfold answerHoldTrack
  split
  · exact ⟨h, nofun⟩
  rename_i t _
  dsimp only
  split
  iterate 3
    · split
      · exact ⟨h, nofun⟩
      · refine ⟨?_, nofun⟩
        dsimp only
        exact h.modifyTrack t _ (h.queues t)
  all_goals exact ⟨h, nofun⟩

theorem releaseTrack (track : Byte) : (answerReleaseTrack track s).1.Within b d ∧ (answerReleaseTrack track s).2.finds s := by
  unfold answerReleaseTrack
  split
  · exact ⟨h, nofun⟩
  rename_i t _
  dsimp only
  split
  · split
    · exact ⟨h, nofun⟩
    split
    · exact ⟨h, nofun⟩
    · exact ⟨h.setTrackState t _, nofun⟩
  iterate 3
    · split
      · refine ⟨?_, nofun⟩
        dsimp only
        exact h.modifyTrack t _ (h.queues t)
      · exact ⟨h, nofun⟩
  all_goals exact ⟨h, nofun⟩

end State.Within
end Sys2Proof.Machine
end

section
namespace Sys2Proof.Machine

/-- An acknowledgement that makes room for a pending gap leaves the journal within its records (R137, R139). -/
theorem Journal.acknowledge_records_le (j : Journal) (a : Nat) (h : j.records.length ≤ Config.journalRecords) :
    (j.acknowledge a).records.length ≤ Config.journalRecords := by
  have hpos : 0 < Config.journalRecords := by decide
  unfold Journal.acknowledge
  split
  · split
    · exact h
    · rw [List.length_append, List.length_drop, List.length_singleton]
      omega
  · rw [List.length_drop]
    omega

/-- The answers to the deferred requests queue no event. -/
theorem State.answerDeferred_events (s : State) : s.answerDeferred.events = s.events := by
  have hkeep (owners : List Owner) : (owners.foldl State.composeAborted { s with choices := s.choices + 1 }).events = s.events :=
    foldl_keeps (P := fun u : State => u.events = s.events) (fun u o hu => (u.composeAborted_events o).trans hu) owners _ rfl
  exact hkeep _

namespace State.Within

variable {b d : Nat} {s : State} (h : s.Within b d)
include h

/-! ### The session unit's and the event queue's answers -/

theorem newSession (hempty : s.events.queue = []) (keepalive : Word16) : (s.openSession keepalive).Within b d :=
  { h with
    events := .of_empty hempty
    closedEvents := fun _ => hempty
    link := { h.link with tallies := ⟨Nat.zero_le _, Nat.zero_le _, Nat.zero_le _, Nat.zero_le _⟩ } }

theorem openSession (keepalive : Word16) : (answerOpenSession keepalive s).1.Within b d := by
  unfold answerOpenSession
  split
  · exact h
  dsimp only
  split
  · refine h.endSession.answerDeferred.newSession ?_ keepalive
    rw [State.answerDeferred_events, State.endSession_frame]
  · rename_i hclosed
    exact h.newSession (h.closedEvents (by simpa using hclosed)) keepalive

theorem removeEvents (n : Nat) : (s.removeEvents n).Within b d := by
  have hdropped : State.Within b d { s with events := { s.events with queue := s.events.queue.drop n } } :=
    { h with
      events := h.events.drop n
      closedEvents := fun hc => by
        rw [h.closedEvents hc]
        exact List.drop_nil }
  unfold State.removeEvents
  dsimp only
  split
  · exact hdropped.reportLinkFault
  · exact hdropped

theorem ackEvents (seq : Word16) : (answerAckEvents seq s).1.Within b d := by
  unfold answerAckEvents
  split
  · split
    · exact h.removeEvents _
    · exact h
  iterate 2 · exact h

theorem replayEvents (seq : Word16) : (answerReplayEvents seq s).1.Within b d := by
  unfold answerReplayEvents
  split
  · rename_i n _
    exact { h with
      events := h.events.replay n
      closedEvents := fun hc => by
        rw [h.closedEvents hc]
        simp }
  iterate 2 · exact h

/-! ### The answers of the other units -/

theorem setTick (divider : Byte) : (answerSetTick divider s).1.Within b d := by
  unfold answerSetTick
  split
  · exact h
  rename_i hdivider
  iterate 3
    split
    · exact h
  have hdiv : isDivider divider.toNat = true := by simpa using hdivider
  have hpos : 0 < divider.toNat := Nat.pos_of_ne_zero fun h0 => by
    rw [h0] at hdiv
    exact absurd hdiv (by decide)
  dsimp only
  split
  · exact h
  · exact { h with clock := ⟨hdiv, hpos⟩ }

theorem setReference (interval : Word32) (window : Word16) : (answerSetReference interval window s).1.Within b d := by
  unfold answerSetReference
  iterate 2
    split
    · exact h
  exact h.reference _

theorem configureLine (line role rest filter capture : Byte) :
    (answerConfigureLine line role rest filter capture s).1.Within b d := by
  unfold answerConfigureLine
  split
  · iterate 3
      split
      · exact h
    exact (h.modifyLine _ _).acceptUnfiltered _
  · exact h

theorem armTrigger (trigger line sense count flags : Byte) :
    (answerArmTrigger trigger line sense count flags s).1.Within b d := by
  have harm (k : TriggerId) (c : TriggerConfig) : (s.arm k c).Within b d := by
    unfold State.arm
    split
    · exact (h.modifyTrigger k _).queueEventIf _ _ fun _ => rfl
    · exact h.modifyTrigger k _
  unfold answerArmTrigger
  split
  · split
    · exact h
    split
    iterate 3 · exact h
    split
    · exact h
    · exact harm _ _
  · exact h

theorem disarmTrigger (trigger : Byte) : (answerDisarmTrigger trigger s).1.Within b d := by
  unfold answerDisarmTrigger
  split
  · exact h
  split
  · exact h
  all_goals exact h.disarm _

theorem readJournal (ack : Word16) (maximum reserved : Byte) (wait : Word16) :
    (answerReadJournal ack maximum reserved wait s).1.Within b d ∧
      (answerReadJournal ack maximum reserved wait s).2.finds s := by
  unfold answerReadJournal
  dsimp only
  iterate 3
    split
    · exact ⟨h, nofun⟩
  have hle := s.journal.acknowledge_records_le ack.toNat h.records
  split
  · split
    · exact ⟨h, nofun⟩
    · rename_i hslot
      exact ⟨{ h with records := hle }, fun _ _ => by simpa using hslot⟩
  · exact ⟨{ h with records := hle }, nofun⟩

theorem setJournal (watermark : Word16) : (answerSetJournal watermark s).1.Within b d := by
  unfold answerSetJournal
  split
  · exact h
  · exact { h with }

/-- A read changes nothing. -/
theorem reads (track page first trigger : Byte) : (answerReadTrack track s).1.Within b d ∧
    (answerReadPage page first s).1.Within b d ∧ (answerReadTrigger trigger s).1.Within b d := by
  unfold answerReadTrack answerReadPage answerReadTrigger
  refine ⟨?_, ?_, ?_⟩
  · split <;> exact h
  · split
    · exact h
    · split <;> exact h
  · split <;> exact h

/-! ### The dispatcher, whatever the request -/

/-- Whatever a request's owner answers, the stores stay within their capacities. -/
theorem answer (i : Instr) : (ownerOf i s).1.Within b d := by
  cases i with
  | openSession tag keepalive => exact h.openSession keepalive
  | closeSession tag => exact h.endSession.answerDeferred
  | resetPart tag => exact { h with }
  | ackEvents tag seq => exact h.ackEvents seq
  | replayEvents tag seq => exact h.replayEvents seq
  | setTick tag divider => exact h.setTick divider
  | setReference tag interval window => exact h.setReference interval window
  | configureLine tag line role rest filter capture => exact h.configureLine line role rest filter capture
  | openPage tag period repeats flags reserved => exact h.openPage period repeats flags reserved
  | appendSteps tag page reserved records => exact h.appendSteps page reserved records
  | sealPage tag page => exact h.sealPage page
  | discardPage tag page => exact h.discardPage page
  | readPage tag page first => exact (h.reads 0 page first 0).2.1
  | configureTrack tag track enable policy options group rest => exact h.configureTrack track enable policy options group rest
  | queuePage tag page track => exact h.queuePage page track
  | flushQueue tag track => exact h.flushQueue track
  | startTrackAt tag track options trigger time offset => exact (h.startAt track options trigger time offset).1
  | startTrackAfter tag track options trigger time offset => exact (h.startAfter track options trigger time offset).1
  | startTrackOnTrigger tag track options trigger time offset => exact (h.startOnTrigger track options trigger time offset).1
  | startTrackAtEpoch tag track options trigger time offset => exact (h.startAtEpoch track options trigger time offset).1
  | stopTrackAbort tag track => exact (h.stopAbort track).1
  | stopTrackEnd tag track => exact (h.stopEnd track).1
  | holdTrack tag track => exact (h.holdTrack track).1
  | releaseTrack tag track => exact (h.releaseTrack track).1
  | readTrack tag track => exact (h.reads track 0 0 0).1
  | armTrigger tag trigger line sense count flags => exact h.armTrigger trigger line sense count flags
  | disarmTrigger tag trigger => exact h.disarmTrigger trigger
  | readTrigger tag trigger => exact (h.reads 0 0 0 trigger).2.2
  | readJournal tag ack maximum reserved wait => exact (h.readJournal ack maximum reserved wait).1
  | setJournal tag watermark => exact h.setJournal watermark
  | _ => exact h

end State.Within

end Sys2Proof.Machine
end

section
/-! The capacities as an invariant of the operations of a step (R168, R172). -/
namespace Sys2Proof.Machine
namespace State.Within

/-- Whoever defers a request has found a deferred request slot free: the starts, Stop Track, Hold Track, Release Track and Read
Journal ask for it, the other requests are answered at once (R172). -/
theorem answer_finds {b d : Nat} {s : State} (h : s.Within b d) (i : Instr) : (ownerOf i s).2.finds s := by
  cases i with
  | startTrackAt tag track options trigger time offset => exact (h.startAt track options trigger time offset).2
  | startTrackAfter tag track options trigger time offset => exact (h.startAfter track options trigger time offset).2
  | startTrackOnTrigger tag track options trigger time offset => exact (h.startOnTrigger track options trigger time offset).2
  | startTrackAtEpoch tag track options trigger time offset => exact (h.startAtEpoch track options trigger time offset).2
  | stopTrackAbort tag track => exact (h.stopAbort track).2
  | stopTrackEnd tag track => exact (h.stopEnd track).2
  | holdTrack tag track => exact (h.holdTrack track).2
  | releaseTrack tag track => exact (h.releaseTrack track).2
  | readJournal tag ack maximum reserved wait => exact (h.readJournal ack maximum reserved wait).2
  | openPage | appendSteps | sealPage | discardPage | readPage =>
    dsimp only [ownerOf, answerOpenPage, answerAppendSteps, answerSealPage, answerDiscardPage, answerReadPage]
    repeat' split
    all_goals nofun
  | configureTrack | queuePage | flushQueue | readTrack =>
    dsimp only [ownerOf, answerConfigureTrack, answerQueuePage, answerFlushQueue, answerReadTrack]
    repeat' split
    all_goals nofun
  | openSession | ackEvents | replayEvents | setTick | setReference =>
    dsimp only [ownerOf, answerOpenSession, answerAckEvents, answerReplayEvents, answerSetTick, answerSetReference]
    repeat' split
    all_goals nofun
  | configureLine | armTrigger | disarmTrigger | readTrigger | setJournal =>
    dsimp only [ownerOf, answerConfigureLine, answerArmTrigger, answerDisarmTrigger, answerReadTrigger, answerSetJournal]
    repeat' split
    all_goals nofun
  | _ => nofun

/-- Step 6 of R168: an immediate answer takes a free place of the transmit buffer, a deferred one a free slot. -/
theorem execute {b d : Nat} {s : State} (h : s.Within (b + 1) (d + 1)) (hd : d + 1 = Config.deferredSlots) (f : Frame) (i : Instr)
    (hb : s.buffered < b + 1) : (s.execute f (ownerOf i)).Within (b + 1) (d + 1) := by
  have hroom := h.rebound (Nat.le_of_lt_succ hb) h.link.slots
  have hanswer := hroom.answer i
  have hfinds := h.answer_finds i
  have hslot (hfree : s.slotFree = true) : s.heldSlots ≤ d := by
    simp only [State.slotFree, decide_eq_true_eq] at hfree
    omega
  unfold State.execute
  split
  · rename_i s' status fields gates hown
    rw [hown] at hanswer
    exact (State.Within.cacheReply hanswer _).pushReply _
  · rename_i s' owner hown
    have hanswer := (h.rebound h.link.buffer (hslot (hfinds owner (by rw [hown])))).answer i
    rw [hown] at hanswer
    exact State.Within.defer hanswer owner f.tag

variable {b d : Nat} {s : State} (h : s.Within b d)
include h

theorem replyTaken {o : Outgoing} {rest : List Outgoing} (hr : s.link.replies = o :: rest) :
    State.Within b d { s with link := { s.link with replies := rest } } := by
  have hcount (p : Outgoing → Bool) : rest.countP p ≤ s.link.replies.countP p := by
    rw [hr]
    exact (List.sublist_cons_self o rest).countP_le
  exact { h with
    link := { h.link with buffer := (hcount _).trans h.link.buffer, slots := (Nat.add_le_add_left (hcount _) _).trans h.link.slots } }

theorem loseLink : s.loseLink.Within b d := by
  have hd := h.endSession.discardDeferred
  simp only [State.loseLink]
  generalize s.endSession.discardDeferred = u at hd ⊢
  exact { hd with link := { hd.link with } }

theorem byteTaken (byte : Byte) (hroom : s.link.fifo.length < Config.fifoBytes) :
    State.Within b d { s with link := { s.link with fifo := s.link.fifo ++ [byte], dropping := false, sinceByte := 0 } } := by
  refine { h with link := { h.link with fifo := ?_ } }
  rw [List.length_append, List.length_singleton]
  exact hroom

theorem discardFiring (k : TriggerId) : (s.discardFiring k).Within b d := by
  unfold State.discardFiring
  split
  · exact h.setLatch k _
  · exact h

theorem endReset (straps : BitVec 2) : (s.endReset straps).Within b d :=
  { h with clock := ⟨h.clock.1, Nat.lt_of_le_of_lt (Nat.zero_le _) h.clock.2⟩ }

end State.Within

theorem State.reset_within : State.reset.Within Config.bufferReplies Config.deferredSlots :=
  (State.withinCapacity_iff _).mp State.reset_withinCapacity

/-- Every store stays within its capacity under every operation of a step. -/
theorem State.within_invariant : State.Invariant (State.Within Config.bufferReplies Config.deferredSlots) where
  pending _ _ h := { h with }
  choices _ _ h := { h with }
  advance _ n h := h.advance n
  assemble _ fifo a hle h := h.assemble fifo a hle
  linkFault _ k h := h.linkFault k
  restartSilence _ h := h.restartSilence
  byteDropped _ h := { h with link := { h.link with } }
  byteTaken _ b hroom h := h.byteTaken b hroom
  pushReply s r hb h := (h.rebound (Nat.le_of_lt_succ hb) h.link.slots).pushReply r
  cacheReply _ r h := h.cacheReply r
  execute _ f i _ _ hb h := State.Within.execute h rfl f i hb
  send _ _ h := { h with link := { h.link with } }
  noticeTaken _ _ h := { h with link := { h.link with } }
  replyTaken _ _ _ hr h := h.replyTaken hr
  eventTaken s e queue ht h := { h with
    events := h.events.take ht
    closedEvents := fun hc => by rw [h.closedEvents hc] at ht; cases ht }
  resetReplyTaken _ h := { h with }
  loseLink _ h := h.loseLink
  beginReset _ _ _ := { State.reset_within with }
  endReset _ straps h := h.endReset straps
  endStartUp _ h := { h with link := { h.link with } }
  freshSample _ h := { h with }
  showLevel _ _ _ h := { h with }
  joinSample _ _ h := { h with }
  acceptEdge _ l h := h.acceptEdge l
  pulse _ h := h.pulse
  missPulse _ h := h.missPulse
  discardFiring _ k h := h.discardFiring k
  endGate _ t h := h.endGate t
  resumeReleased _ t h := h.resumeReleased t
  expireRead _ h := h.expireRead
  startEffect _ t h := h.startEffect t
  releaseEffect _ t h := h.releaseEffect t
  trackActions _ t h := h.trackActions t

/-- Settles O56: being within the capacities is an invariant of the operations of a step, whose dispatcher asks for the free
place or slot that an answer takes. -/
theorem stepsKeepWithinCapacity : Obligations.StepsKeepWithinCapacity := by
  unfold Obligations.StepsKeepWithinCapacity
  intro s t h ht
  rw [State.withinCapacity_iff] at h ⊢
  exact State.within_invariant.step h ht

end Sys2Proof.Machine
end

section
/-! Executed requests, and the page pool's answers (R11, R15 to R19). -/
namespace Sys2Proof.Machine

/-! ### Requests -/

/-- A row of the table that is a request: its frame has the kind and tag, passes the first two steps of R168, and is handled by
the owner of the request. -/
structure IsRequest (i : Instr) (kind tag : Byte) : Prop where
  exec_eq : ∀ s, exec i s = .next (s.request i (ownerOf i))
  framed : ∃ payload, i.frame = some ⟨kind, tag, payload⟩ ∧ isRequestKind kind = true ∧
    lengthFits kind payload.length = true

/-- A request that is executed and answered at once leaves the state answered. -/
theorem IsRequest.reply {i : Instr} {kind tag : Byte} (hi : IsRequest i kind tag) {s s' : State} {status : Status}
    {fields : List Byte} {gates : TriggerSet} (h : s.Executes kind tag) {b : State} (hb : s.restartSilence = b)
    (ha : ownerOf i b = (s', .reply status fields gates)) :
    exec i s = .next (s'.answered (kind + 0x80) tag status fields gates) := by
  subst hb
  obtain ⟨payload, hframe, hkind, hlen⟩ := hi.framed
  rw [hi.exec_eq, State.request_executed _ h hframe hkind hlen, State.execute_reply ha]

/-- The good frame of a request touches the session's silence timer alone (R164). -/
theorem State.restartSilence_eq (s : State) : ∃ session, s.restartSilence = { s with session := session } := by
  unfold State.restartSilence
  split
  · exact ⟨_, rfl⟩
  · exact ⟨s.session, rfl⟩

/-! ### Open Page -/

/-- The record of a page that Open Page has taken (R11). -/
def Page.opened (period : Word32) (repeats : Word16) (flags : Byte) : Page :=
  ⟨.opened, period, repeats, flag flags 0, flag flags 1, [], 0, 0, none⟩


section
variable {period : Word32} {repeats : Word16} {flags reserved : Byte} {u : State}

theorem answerOpenPage_badValue (h : reserved ≠ 0 ∨ period.toNat < 16 ∨ 4 ≤ flags.toNat) :
    answerOpenPage period repeats flags reserved u = (u, .say .badValue (u8 0 ++ u.poolCounts)) := by
  refine if_pos (h.imp_right (Or.imp_right fun hflags => ?_))
  simp [onlyFlags, hflags]

theorem answerOpenPage_noSpace (hreserved : reserved = 0) (hperiod : 16 ≤ period.toNat) (hflags : flags.toNat < 4)
    (hnone : ∀ p : PageId, u.pages[p].state ≠ .free) :
    answerOpenPage period repeats flags reserved u = (u, .say .noSpace (u8 0 ++ u.poolCounts)) := by
  have hfind : (List.finRange 64).find? (fun p => u.pages[p].state == .free) = none := by
    rw [← Fin.find?_eq_find?_finRange]
    exact Fin.find?_eq_none_iff.mpr fun p => beq_false_of_ne (hnone p)
  unfold answerOpenPage
  rw [if_neg (by simp [onlyFlags, hreserved, hperiod, hflags]), hfind]

/-- The page a search from P0 upwards finds is the lowest-numbered FREE one. -/
theorem answerOpenPage_ok (hreserved : reserved = 0) (hperiod : 16 ≤ period.toNat) (hflags : flags.toNat < 4) {p : PageId}
    (hfree : u.pages[p].state = .free) (hlowest : ∀ q : PageId, q < p → u.pages[q].state ≠ .free) :
    answerOpenPage period repeats flags reserved u =
      (u.modifyPage p fun _ => Page.opened period repeats flags,
        .say .ok (u8 p.val ++ (u.modifyPage p fun _ => Page.opened period repeats flags).poolCounts)) := by
  have hfind : (List.finRange 64).find? (fun p => u.pages[p].state == .free) = some p := by
    rw [← Fin.find?_eq_find?_finRange]
    exact Fin.find?_eq_some_iff.mpr ⟨beq_iff_eq.mpr hfree, fun q hq => beq_false_of_ne (hlowest q hq)⟩
  unfold answerOpenPage
  rw [if_neg (by simp [onlyFlags, hreserved, hperiod, hflags]), hfind]
  rfl

end

/-- Settles O18: the search over the page numbers gives the least FREE one. -/
theorem openPageTakesTheLowestFreePage : Obligations.OpenPageTakesTheLowestFreePage := by
  unfold Obligations.OpenPageTakesTheLowestFreePage
  intro s tag period repeats flags reserved _ hx
  have request : IsRequest (.openPage tag period repeats flags reserved) 0x20 tag := ⟨fun _ => rfl, _, rfl, rfl, rfl⟩
  obtain ⟨session, hb⟩ := s.restartSilence_eq
  simp only [hb]
  refine ⟨fun h => ?_, fun hreserved hperiod hflags => ⟨fun hnone => ?_, fun p hfree hlowest => ?_⟩⟩
  · exact request.reply hx hb (answerOpenPage_badValue h)
  · exact request.reply hx hb (answerOpenPage_noSpace hreserved hperiod hflags hnone)
  · exact request.reply hx hb (answerOpenPage_ok hreserved hperiod hflags hfree hlowest)

end Sys2Proof.Machine
end

section
/-! The page pool's answers: Read Page, Read Pool, Seal Page and Discard Page (R15 to R19). -/
namespace Sys2Proof.Machine

/-! ### Reads -/

/-- Settles O22: a read's answer is the state it is asked in, whose bytes are those of the records. -/
theorem pageReadsReportThePool : Obligations.PageReadsReportThePool := by
  unfold Obligations.PageReadsReportThePool
  intro s tag _ b stateAndOwner
  have hstate (page : Page) : page.stateByte = u8 (stateAndOwner page) := by
    unfold Page.stateByte stateAndOwner
    cases page.state <;> rfl
  obtain ⟨session, hb⟩ := s.restartSilence_eq
  simp only [b, hb]
  refine ⟨fun hx p first hfirst => ?_, fun hx p first hfirst => ?_, fun hx => ?_⟩
  · have request : IsRequest (.readPage tag (BitVec.ofNat 8 p.val) first) 0x24 tag := ⟨fun _ => rfl, _, rfl, rfl, rfl⟩
    refine request.reply hx hb ?_
    simp only [ownerOf, answerReadPage, idBelow_page, if_pos hfirst]
    rfl
  · have request : IsRequest (.readPage tag (BitVec.ofNat 8 p.val) first) 0x24 tag := ⟨fun _ => rfl, _, rfl, rfl, rfl⟩
    have hbit (flag : Bool) (n : Nat) : (if flag then n else 0) = n * flag.toNat := by cases flag <;> simp
    refine request.reply hx hb ?_
    simp only [ownerOf, answerReadPage, idBelow_page, if_neg (Nat.not_lt.mpr hfirst), hstate, hbit]
  · have request : IsRequest (.readPool tag) 0x25 tag := ⟨fun _ => rfl, _, rfl, rfl, rfl⟩
    refine request.reply hx hb ?_
    simp only [ownerOf, answerReadPool, State.poolCounts, ← hstate]
    rfl

/-! ### Seal Page and Discard Page -/

/-- The bits of a union over a list. -/
theorem getLsbD_foldl_or {α : Type} {w : Nat} (f : α → BitVec w) (l : List α) (m : BitVec w) (i : Nat) :
    (l.foldl (fun m a => m ||| f a) m).getLsbD i = true ↔ m.getLsbD i = true ∨ ∃ a ∈ l, (f a).getLsbD i = true := by
  induction l generalizing m with
  | nil => simp
  | cons a l ih => simp [ih, or_assoc]

/-- A footprint is the lines that a step drives, toggles or pulses (R16). -/
theorem getLsbD_footprintOf (steps : List Step) (l : LineId) :
    (footprintOf steps).getLsbD l = true ↔ ∃ st ∈ steps, st.lines.getLsbD l = true := by
  unfold footprintOf
  rw [getLsbD_foldl_or]
  simp

/-- The trigger that a step names is its gate's (R16). -/
theorem Step.getLsbD_gates (st : Step) (k : TriggerId) :
    st.gates.getLsbD k = true ↔ ∃ o t a r, st = .gate o k t a r := by
  cases st with
  | gate offset k' timeout action report =>
    simp [Step.gates, Fin.ext_iff]
    omega
  | _ => simp [Step.gates]

theorem getLsbD_gateSetOf (steps : List Step) (k : TriggerId) :
    (gateSetOf steps).getLsbD k = true ↔ ∃ st ∈ steps, ∃ o t a r, st = .gate o k t a r := by
  unfold gateSetOf
  rw [getLsbD_foldl_or]
  simp only [Step.getLsbD_gates]
  simp

/-- Settles O21: the page's state decides between the refusals and the change; the two sets are unions over the steps. -/
theorem sealAndDiscardPages : Obligations.SealAndDiscardPages := by
  unfold Obligations.SealAndDiscardPages
  refine ⟨⟨fun s tag p _ hx => ?_, fun steps => ⟨getLsbD_footprintOf steps, getLsbD_gateSetOf steps⟩⟩, fun s tag p _ hx => ?_⟩
  · have request : IsRequest (.sealPage tag (BitVec.ofNat 8 p.val)) 0x22 tag := ⟨fun _ => rfl, _, rfl, rfl, rfl⟩
    obtain ⟨session, hb⟩ := s.restartSilence_eq
    simp only [hb]
    refine ⟨fun hp => ?_, fun hp => ?_, fun hp => ?_⟩
    · refine request.reply hx hb ?_
      simp only [ownerOf, answerSealPage, idBelow_page, hp]
      rfl
    · refine request.reply hx hb ?_
      rcases hp with hp | hp | hp <;> simp only [ownerOf, answerSealPage, idBelow_page, hp] <;> rfl
    · refine request.reply hx hb ?_
      simp only [ownerOf, answerSealPage, idBelow_page, hp]
      rfl
  · have request : IsRequest (.discardPage tag (BitVec.ofNat 8 p.val)) 0x23 tag := ⟨fun _ => rfl, _, rfl, rfl, rfl⟩
    obtain ⟨session, hb⟩ := s.restartSilence_eq
    simp only [hb]
    refine ⟨fun hp => ?_, fun hp => ?_, fun hp => ?_⟩
    · refine request.reply hx hb ?_
      rcases hp with hp | hp <;> simp only [ownerOf, answerDiscardPage, idBelow_page, hp] <;> rfl
    · refine request.reply hx hb ?_
      rcases hp with hp | hp <;> simp only [ownerOf, answerDiscardPage, idBelow_page, hp] <;> rfl
    · refine request.reply hx hb ?_
      simp only [ownerOf, answerDiscardPage, idBelow_page, hp]
      rfl

end Sys2Proof.Machine
end

section
/-! Step records and the checks of Append Steps (R3 to R8, R13, R14, R189). -/
namespace Sys2Proof.Machine

/-! ### Step records -/

/-- A word whose upper half is 0 is its lower half (R189). -/
theorem lowHalf_iff (x : Word32) (v : Word16) :
    x.extractLsb' 16 16 = 0 ∧ x.extractLsb' 0 16 = v ↔ v.setWidth 32 = x := by
  have hv := v.isLt
  have hx := x.isLt
  simp only [← BitVec.toNat_inj, BitVec.extractLsb'_toNat, BitVec.toNat_setWidth, Nat.shiftRight_eq_div_pow]
  change x.toNat / 65536 % 65536 = 0 ∧ x.toNat / 1 % 65536 = v.toNat ↔ v.toNat % 4294967296 = x.toNat
  omega

/-- The flag byte of a PULSE is its level alone (R189). -/
theorem pulseFlags_iff : ∀ (flags : Byte) (level : Bool),
    flags &&& 0xFE = 0 ∧ flags.getLsbD 0 = level ↔ (BitVec.ofBool level).setWidth 8 = flags := by
  decide +kernel

/-- The flag byte of a GATE is its trigger in bits 0 to 3, its action in bit 4 and its report in bit 5 (R189). -/
theorem gateFlags_iff (flags : Byte) (k : TriggerId) (action : GateAction) (report : Bool) :
    (flags &&& 0xC0 = 0 ∧ idBelow 4 (flags &&& 0x0F) = some k ∧
        (if flags.getLsbD 4 then GateAction.fault else .continue) = action ∧ flags.getLsbD 5 = report) ↔
      BitVec.ofNat 8 (k.val + (if action = .fault then 16 else 0) + (if report then 32 else 0)) = flags := by
  cases action
  all_goals
    revert flags k report
    decide +kernel

/-- What a step by itself must satisfy (R4 to R8, R13). -/
def Step.Valid : Step → Prop
  | .drive _ lines levels => lines ≠ 0 ∧ levels &&& ~~~lines = 0
  | .toggle _ lines => lines ≠ 0
  | .pulse _ lines _ width => lines ≠ 0 ∧ width ≠ 0
  | .mark _ _ | .gate _ _ _ _ _ => True

/-- A record is the one with its fields. -/
theorem StepRecord.mk_eq {r : StepRecord} {kind flags : Byte} {lines : LineSet} {argument : Word32}
    (hkind : r.kind.toNat = kind.toNat) (hflags : flags = r.flags) (hlines : lines = r.lines) (hargument : argument = r.argument) :
    (⟨kind, flags, r.offset, lines, argument⟩ : StepRecord) = r := by
  rw [← BitVec.eq_of_toNat_eq hkind, hflags, hlines, hargument]

/-- The step a record gives is valid by itself, and the record is its record. -/
theorem record_of_stepContents {r : StepRecord} {st : Step} (h : stepContents r = some st) : st.record = r ∧ st.Valid := by
  unfold stepContents at h
  split at h
  · rename_i hkind
    split at h
    · rename_i hdrive
      obtain ⟨hflags, hlines, hhigh, hlevels⟩ := hdrive
      cases h
      exact ⟨StepRecord.mk_eq hkind hflags.symm rfl ((lowHalf_iff _ _).mp ⟨hhigh, rfl⟩), hlines, hlevels⟩
    · cases h
  · rename_i hkind
    split at h
    · rename_i htoggle
      obtain ⟨hflags, hlines, hargument⟩ := htoggle
      cases h
      exact ⟨StepRecord.mk_eq hkind hflags.symm rfl hargument.symm, hlines⟩
    · cases h
  · rename_i hkind
    split at h
    · rename_i hpulse
      obtain ⟨hflags, hlines, hwidth⟩ := hpulse
      cases h
      exact ⟨StepRecord.mk_eq hkind ((pulseFlags_iff _ _).mp ⟨hflags, rfl⟩) rfl rfl, hlines, hwidth⟩
    · cases h
  · rename_i hkind
    split at h
    · rename_i hmark
      obtain ⟨hflags, hlines, hhigh⟩ := hmark
      cases h
      exact ⟨StepRecord.mk_eq hkind hflags.symm hlines.symm ((lowHalf_iff _ _).mp ⟨hhigh, rfl⟩), trivial⟩
    · cases h
  · rename_i hkind
    split at h
    · rename_i hgate
      obtain ⟨hflags, hlines⟩ := hgate
      obtain ⟨k, hid, rfl⟩ := Option.map_eq_some_iff.mp h
      exact ⟨StepRecord.mk_eq hkind ((gateFlags_iff _ _ _ _).mp ⟨hflags, hid, rfl, rfl⟩) hlines.symm rfl, trivial⟩
    · cases h
  · cases h

/-- The record of a step that is valid by itself gives that step. -/
theorem stepContents_record {st : Step} (hv : st.Valid) : stepContents st.record = some st := by
  cases st with
  | drive o l levels =>
    obtain ⟨hlines, hlevels⟩ := hv
    obtain ⟨hhigh, hlow⟩ := (lowHalf_iff _ levels).mpr rfl
    refine (if_pos ⟨rfl, hlines, hhigh, hlow.symm ▸ hlevels⟩).trans ?_
    simp only [Step.record, hlow]
  | toggle o l => exact if_pos ⟨rfl, hv, rfl⟩
  | pulse o l level width =>
    obtain ⟨hlines, hwidth⟩ := hv
    obtain ⟨hflags, hlevel⟩ := (pulseFlags_iff _ level).mpr rfl
    refine (if_pos ⟨hflags, hlines, hwidth⟩).trans ?_
    simp only [Step.record, hlevel]
  | mark o code =>
    obtain ⟨hhigh, hlow⟩ := (lowHalf_iff _ code).mpr rfl
    refine (if_pos ⟨rfl, rfl, hhigh⟩).trans ?_
    simp only [Step.record, hlow]
  | gate o k timeout action report =>
    obtain ⟨hflags, hid, hfault, hreport⟩ := (gateFlags_iff _ k action report).mpr rfl
    refine (if_pos ⟨hflags, rfl⟩).trans ?_
    simp only [Step.record, hid, hreport, Option.map_some]
    exact congrArg (fun a => some (Step.gate o k timeout a report)) hfault

theorem stepContents_eq_some_iff (r : StepRecord) (st : Step) : stepContents r = some st ↔ st.record = r ∧ st.Valid := by
  refine ⟨record_of_stepContents, ?_⟩
  rintro ⟨rfl, hv⟩
  exact stepContents_record hv

end Sys2Proof.Machine
end

section
/-! The checks of Append Steps, record by record, and what it takes (R12 to R14). -/
namespace Sys2Proof.Machine

/-! ### The checks of a list of records -/

theorem Step.fits_iff (period : Word32) (before : Nat) (st : Step) :
    st.fits period before = true ↔ before ≤ st.offset.toNat ∧ st.offset.toNat < period.toNat ∧
      ∀ o l v w, st = .pulse o l v w → o.toNat + w.toNat ≤ period.toNat := by
  cases st with
  | pulse o l v w =>
    have hends : (∀ o' l' v' w', Step.pulse o l v w = .pulse o' l' v' w' → o'.toNat + w'.toNat ≤ period.toNat) ↔
        o.toNat + w.toNat ≤ period.toNat := by
      refine ⟨fun h => h o l v w rfl, ?_⟩
      rintro h _ _ _ _ ⟨⟩
      exact h
    rw [hends]
    simp only [Step.fits, Bool.and_eq_true, decide_eq_true_eq]
    tauto
  | _ => simp [Step.fits, and_comm]

section
variable {period : Word32} {index before : Nat} {r : StepRecord} {rest : List StepRecord}

/-- A record that gives no step that fits ends the check with its index. -/
theorem checkSteps_cons_invalid (h : ∀ st, stepContents r = some st → st.fits period before = false) :
    checkSteps period index before (r :: rest) = .error index := by
  rw [checkSteps]
  split
  · rfl
  · rename_i st hst
    rw [h st hst]
    rfl

/-- A record whose step fits is checked, and the check goes on from its offset. -/
theorem checkSteps_cons_valid {st : Step} (hst : stepContents r = some st) (hfits : st.fits period before = true) :
    checkSteps period index before (r :: rest) =
      (checkSteps period (index + 1) st.offset.toNat rest).map (st :: ·) := by
  rw [checkSteps]
  simp only [hst, hfits, if_true]
  cases checkSteps period (index + 1) st.offset.toNat rest <;> rfl

theorem checkSteps_cons_ok_iff {steps : List Step} :
    checkSteps period index before (r :: rest) = .ok steps ↔
      ∃ st sts, steps = st :: sts ∧ stepContents r = some st ∧ st.fits period before = true ∧
        checkSteps period (index + 1) st.offset.toNat rest = .ok sts := by
  by_cases h : ∃ st, stepContents r = some st ∧ st.fits period before = true
  · obtain ⟨st, hst, hfits⟩ := h
    rw [checkSteps_cons_valid hst hfits]
    cases hrest : checkSteps period (index + 1) st.offset.toNat rest with
    | error i =>
      refine ⟨nofun, ?_⟩
      rintro ⟨st', sts, rfl, hst', -, hok⟩
      cases hst.symm.trans hst'
      cases hrest.symm.trans hok
    | ok sts =>
      constructor
      · rintro ⟨⟩
        exact ⟨st, sts, rfl, hst, hfits, hrest⟩
      · rintro ⟨st', sts', rfl, hst', -, hok⟩
        cases hst.symm.trans hst'
        cases hrest.symm.trans hok
        rfl
  · rw [checkSteps_cons_invalid fun st hst => by simpa using fun hfits => h ⟨st, hst, hfits⟩]
    refine ⟨nofun, ?_⟩
    rintro ⟨st, -, -, hst, hfits, -⟩
    exact absurd ⟨st, hst, hfits⟩ h

end

/-- An ascending list goes up from each element to the next. -/
theorem pairwise_le_cons_cons {a b : Nat} {l : List Nat} :
    (a :: b :: l).Pairwise (· ≤ ·) ↔ a ≤ b ∧ (b :: l).Pairwise (· ≤ ·) := by
  rw [← List.isChain_iff_pairwise, ← List.isChain_iff_pairwise, List.isChain_cons_cons]

/-- The check passes for one step of each record, with ascending offsets, each within the period (R13). -/
theorem checkSteps_ok_iff (period : Word32) (index before : Nat) (records : List StepRecord) (steps : List Step) :
    checkSteps period index before records = .ok steps ↔
      records.map stepContents = steps.map some ∧
        (before :: steps.map fun st => st.offset.toNat).Pairwise (· ≤ ·) ∧
        ∀ st ∈ steps, st.offset.toNat < period.toNat ∧
          ∀ o l v w, st = .pulse o l v w → o.toNat + w.toNat ≤ period.toNat := by
  induction records generalizing index before steps with
  | nil => cases steps <;> simp [checkSteps]
  | cons r rest ih =>
    rw [checkSteps_cons_ok_iff]
    cases steps with
    | nil => simp
    | cons st sts =>
      constructor
      · rintro ⟨st', sts', heq, hst, hfits, hok⟩
        cases heq
        obtain ⟨hmap, hascending, hwithin⟩ := (ih _ _ _).mp hok
        obtain ⟨hle, hst'⟩ := (Step.fits_iff _ _ _).mp hfits
        exact ⟨by simp [hst, hmap], pairwise_le_cons_cons.mpr ⟨hle, hascending⟩, List.forall_mem_cons.mpr ⟨hst', hwithin⟩⟩
      · rintro ⟨hmap, hascending, hwithin⟩
        obtain ⟨hst, hmap⟩ := List.cons.inj hmap
        obtain ⟨hle, hascending⟩ := pairwise_le_cons_cons.mp hascending
        obtain ⟨hst', hwithin⟩ := List.forall_mem_cons.mp hwithin
        exact ⟨st, sts, rfl, hst, (Step.fits_iff _ _ _).mpr ⟨hle, hst'⟩, (ih _ _ _).mpr ⟨hmap, hascending, hwithin⟩⟩

/-- The check fails at the first record up to which it does not pass (R13, R14). -/
theorem checkSteps_error_iff (period : Word32) (index before : Nat) (records : List StepRecord) (j : Nat) :
    checkSteps period index before records = .error j ↔
      ∃ i, i < records.length ∧ j = index + i ∧
        (∃ steps, checkSteps period index before (records.take i) = .ok steps) ∧
        ∀ steps, checkSteps period index before (records.take (i + 1)) ≠ .ok steps := by
  induction records generalizing index before with
  | nil => simp [checkSteps]
  | cons r rest ih =>
    by_cases h : ∃ st, stepContents r = some st ∧ st.fits period before = true
    · obtain ⟨st, hst, hfits⟩ := h
      have hok (l : List StepRecord) : (∃ steps, checkSteps period index before (r :: l) = .ok steps) ↔
          ∃ steps, checkSteps period (index + 1) st.offset.toNat l = .ok steps := by
        rw [checkSteps_cons_valid hst hfits]
        cases checkSteps period (index + 1) st.offset.toNat l <;> simp [Except.map]
      have herror : checkSteps period index before (r :: rest) = .error j ↔
          checkSteps period (index + 1) st.offset.toNat rest = .error j := by
        rw [checkSteps_cons_valid hst hfits]
        cases checkSteps period (index + 1) st.offset.toNat rest <;> simp [Except.map]
      rw [herror, ih]
      constructor
      · rintro ⟨i, hi, rfl, hbefore, hfails⟩
        refine ⟨i + 1, Nat.succ_lt_succ hi, by omega, (hok _).mpr hbefore, ?_⟩
        exact not_exists.mp (mt (hok _).mp (not_exists.mpr hfails))
      · rintro ⟨i, hi, rfl, hbefore, hfails⟩
        cases i with
        | zero => exact absurd ((hok []).mpr ⟨[], rfl⟩) (not_exists.mpr hfails)
        | succ i =>
          refine ⟨i, Nat.lt_of_succ_lt_succ hi, by omega, (hok _).mp hbefore, ?_⟩
          exact not_exists.mp (mt (hok _).mpr (not_exists.mpr hfails))
    · have herror (l : List StepRecord) : checkSteps period index before (r :: l) = .error index :=
        checkSteps_cons_invalid fun st hst => by simpa using fun hfits => h ⟨st, hst, hfits⟩
      rw [herror]
      constructor
      · rintro ⟨⟩
        exact ⟨0, Nat.succ_pos _, rfl, ⟨[], rfl⟩, fun steps => by rw [List.take_succ_cons, herror]; nofun⟩
      · rintro ⟨i, -, rfl, ⟨steps, hbefore⟩, -⟩
        cases i with
        | zero => rfl
        | succ i =>
          rw [List.take_succ_cons, herror] at hbefore
          cases hbefore

/-- Settles O20: what a record carries is the one step whose record it is, so the five kinds are five record shapes; the check
of a list is an induction on its records. -/
theorem stepsAreCheckedAndKept : Obligations.StepsAreCheckedAndKept := by
  unfold Obligations.StepsAreCheckedAndKept
  refine ⟨fun r st => ?_, checkSteps_ok_iff, checkSteps_error_iff, fun r st h => ?_⟩
  · rw [stepContents_eq_some_iff]
    constructor
    · rintro ⟨rfl, hv⟩
      cases st with
      | drive o l levels => exact .inl ⟨rfl, rfl, hv.1, levels, rfl, hv.2, rfl⟩
      | toggle o l => exact .inr (.inl ⟨rfl, rfl, hv, rfl, rfl⟩)
      | pulse o l level width => exact .inr (.inr (.inl ⟨rfl, hv.1, hv.2, level, rfl, rfl⟩))
      | mark o code => exact .inr (.inr (.inr (.inl ⟨rfl, rfl, rfl, code, rfl, rfl⟩)))
      | gate o k timeout action report => exact .inr (.inr (.inr (.inr ⟨rfl, rfl, k, action, report, rfl, rfl⟩)))
    · have hnat {kind : Byte} (hkind : r.kind = kind) : r.kind.toNat = kind.toNat := congrArg BitVec.toNat hkind
      rintro (⟨hkind, hflags, hlines, levels, hargument, hlevels, rfl⟩ | ⟨hkind, hflags, hlines, hargument, rfl⟩ |
        ⟨hkind, hlines, hwidth, level, hflags, rfl⟩ | ⟨hkind, hflags, hlines, code, hargument, rfl⟩ |
        ⟨hkind, hlines, k, action, report, hflags, rfl⟩)
      · exact ⟨StepRecord.mk_eq (hnat hkind) hflags.symm rfl hargument.symm, hlines, hlevels⟩
      · exact ⟨StepRecord.mk_eq (hnat hkind) hflags.symm rfl hargument.symm, hlines⟩
      · exact ⟨StepRecord.mk_eq (hnat hkind) hflags.symm rfl rfl, hlines, hwidth⟩
      · exact ⟨StepRecord.mk_eq (hnat hkind) hflags.symm hlines.symm hargument.symm, trivial⟩
      · exact ⟨StepRecord.mk_eq (hnat hkind) hflags.symm hlines.symm rfl, trivial⟩
  · obtain ⟨hrecord, -⟩ := record_of_stepContents h
    exact ⟨hrecord, by rw [hrecord]⟩

end Sys2Proof.Machine
end

section
/-! Append Steps and Queue Page (R12 to R14, R20, R57, R58). -/
namespace Sys2Proof.Machine

/-! ### Append Steps -/

theorem isRequest_appendSteps (tag page reserved : Byte) {records : List StepRecord} (hone : 1 ≤ records.length)
    (hmost : records.length ≤ 19) : IsRequest (.appendSteps tag page reserved records) 0x21 tag := by
  refine ⟨fun _ => rfl, _, rfl, rfl, ?_⟩
  exact (Laws.Frames.appendSteps tag page reserved records _ (by simp [Instr.wellFormed, hone, hmost]) rfl).2 rfl

theorem State.appendFields_page (u : State) (p : PageId) (invalid : Nat) :
    u.appendFields (BitVec.ofNat 8 p.val) invalid =
      u8 p.val ++ u8 u.pages[p].steps.length ++ u16 u.freeSlots ++ u8 invalid := by
  rw [State.appendFields, idBelow_page]
  rfl

section
variable {u : State} {p : PageId} {records : List StepRecord}

/-- On an OPEN page the check of the records decides. -/
theorem answerAppendSteps_error {i : Nat} (hp : u.pages[p].state = .opened)
    (hcheck : checkSteps u.pages[p].period 0 u.pages[p].lastOffset records = .error i) :
    answerAppendSteps (BitVec.ofNat 8 p.val) 0 records u =
      (u, .say .badValue (u8 p.val ++ u8 u.pages[p].steps.length ++ u16 u.freeSlots ++ u8 i)) := by
  unfold answerAppendSteps
  simp only [ne_eq, not_true_eq_false, if_false, idBelow_page, hp, hcheck, State.appendFields_page]

theorem answerAppendSteps_noSpace {steps : List Step} (hp : u.pages[p].state = .opened)
    (hcheck : checkSteps u.pages[p].period 0 u.pages[p].lastOffset records = .ok steps)
    (hfull : Config.pageSteps < u.pages[p].steps.length + steps.length ∨ u.freeSlots < steps.length) :
    answerAppendSteps (BitVec.ofNat 8 p.val) 0 records u =
      (u, .say .noSpace (u8 p.val ++ u8 u.pages[p].steps.length ++ u16 u.freeSlots ++ u8 0)) := by
  unfold answerAppendSteps
  simp only [ne_eq, not_true_eq_false, if_false, idBelow_page, hp, hcheck, State.appendFields_page]
  split
  · rfl
  · rename_i hpage
    rw [if_pos (hfull.resolve_left hpage)]

theorem answerAppendSteps_ok {steps : List Step} (hp : u.pages[p].state = .opened)
    (hcheck : checkSteps u.pages[p].period 0 u.pages[p].lastOffset records = .ok steps)
    (hpage : u.pages[p].steps.length + steps.length ≤ Config.pageSteps) (hslots : steps.length ≤ u.freeSlots) :
    let u' := u.modifyPage p fun page => { page with steps := page.steps ++ steps }
    answerAppendSteps (BitVec.ofNat 8 p.val) 0 records u =
      (u', .say .ok (u8 p.val ++ u8 (u.pages[p].steps.length + steps.length) ++ u16 u'.freeSlots ++ u8 0)) := by
  unfold answerAppendSteps
  simp only [ne_eq, not_true_eq_false, if_false, idBelow_page, hp, hcheck, Nat.not_lt.mpr hpage, Nat.not_lt.mpr hslots,
    State.appendFields_page, State.modifyPage_self, List.length_append]

end

/-- Settles O19: the page's state, the check of the records and the room left decide, in that order. -/
theorem appendStepsTakesAllOrNone : Obligations.AppendStepsTakesAllOrNone := by
  unfold Obligations.AppendStepsTakesAllOrNone
  intro s tag p records _ hx hone hmost
  have request (reserved : Byte) := isRequest_appendSteps tag (BitVec.ofNat 8 p.val) reserved hone hmost
  obtain ⟨session, hb⟩ := s.restartSilence_eq
  simp only [hb]
  refine ⟨fun reserved hreserved => ?_, fun hp => ?_, fun hp => ?_, fun i hp hcheck => ?_,
    fun steps hp hcheck => ⟨fun hfull => ?_, fun hpage hslots => ?_⟩⟩
  · refine (request reserved).reply hx hb ((if_pos hreserved).trans ?_)
    rw [State.appendFields_page]
    rfl
  · refine (request 0).reply hx hb ?_
    simp only [ownerOf, answerAppendSteps, ne_eq, not_true_eq_false, if_false, idBelow_page, hp, State.appendFields_page]
    rfl
  · refine (request 0).reply hx hb ?_
    rcases hp with hp | hp | hp <;>
      simp only [ownerOf, answerAppendSteps, ne_eq, not_true_eq_false, if_false, idBelow_page, hp, State.appendFields_page] <;>
      rfl
  · exact (request 0).reply hx hb (answerAppendSteps_error hp hcheck)
  · exact (request 0).reply hx hb (answerAppendSteps_noSpace hp hcheck hfull)
  · exact (request 0).reply hx hb (answerAppendSteps_ok hp hcheck hpage hslots)

end Sys2Proof.Machine
end

section
/-! Queue Page and Flush Queue (R20, R23, R57, R58, R69, R77, R78). -/
namespace Sys2Proof.Machine

theorem State.stateCode_track (u : State) (t : TrackId) :
    u.stateCode (BitVec.ofNat 8 t.val) = u8 u.tracks[t].state.code := by
  rw [State.stateCode, idBelow_track]
  rfl

/-! ### Queue Page -/

theorem State.queueFields_track (u : State) (page : Byte) (t : TrackId) :
    u.queueFields page (BitVec.ofNat 8 t.val) =
      u8 t.val ++ [page] ++ u8 u.tracks[t].queue.length ++ u8 u.tracks[t].state.code := by
  rw [State.queueFields, idBelow_track, State.stateCode_track]
  rfl

theorem TrackState.takesPages_iff (st : TrackState) : st.takesPages = true ↔ st ≠ .disabled ∧ st ≠ .faulted := by
  cases st <;> simp [TrackState.takesPages]

theorem within_iff (a b : LineSet) : within a b = true ↔ a &&& ~~~b = 0 := by rw [within, beq_iff_eq]

/-- Settles O25: the checks in their order, each on the records of the page and the track. -/
theorem queuePageJoinsTheTail : Obligations.QueuePageJoinsTheTail := by
  unfold Obligations.QueuePageJoinsTheTail
  intro s tag p t _ hx
  have request : IsRequest (.queuePage tag (BitVec.ofNat 8 p.val) (BitVec.ofNat 8 t.val)) 0x31 tag :=
    ⟨fun _ => rfl, _, rfl, rfl, rfl⟩
  obtain ⟨session, hb⟩ := s.restartSilence_eq
  simp only [hb, ← TrackState.takesPages_iff, ← within_iff, ne_eq]
  refine ⟨fun ht => ?_, fun ht hp => ?_, fun ht hp => ?_, fun ht hp hq => ?_, fun ht hp hq => ⟨fun hf => ?_, fun hf => ?_⟩⟩
  · refine request.reply hx hb ?_
    simp only [ownerOf, answerQueuePage, idBelow_page, idBelow_track, ht, State.queueFields_track]
    rfl
  · refine request.reply hx hb ?_
    simp only [ownerOf, answerQueuePage, idBelow_page, idBelow_track, ht, hp, State.queueFields_track]
    rfl
  · refine request.reply hx hb ?_
    rcases hp with hp | hp | hp <;>
      simp only [ownerOf, answerQueuePage, idBelow_page, idBelow_track, ht, hp, State.queueFields_track] <;> rfl
  · refine request.reply hx hb ?_
    simp only [ownerOf, answerQueuePage, idBelow_page, idBelow_track, ht, hp, State.queueFields_track]
    exact if_pos hq
  · refine request.reply hx hb ?_
    simp only [ownerOf, answerQueuePage, idBelow_page, idBelow_track, ht, hp, State.queueFields_track]
    exact (if_neg (Nat.not_le.mpr hq)).trans (if_pos (by simpa using hf))
  · refine request.reply hx hb ?_
    simp only [ownerOf, answerQueuePage, idBelow_page, idBelow_track, ht, hp, State.queueFields_track]
    refine (if_neg (Nat.not_le.mpr hq)).trans ((if_neg (by simpa using hf)).trans ?_)
    simp only [State.modifyTrack_self, List.length_append, List.length_singleton]
    rfl

/-! ### Flush Queue -/

theorem State.leavePages_eq (s : State) (ps : List PageId) : s.leavePages ps = { s with pages := (s.leavePages ps).pages } := by
  have h := State.SameElsewhere.leavePages s ps
  unfold State.SameElsewhere at h
  rwa [State.leavePages_tracks, State.leavePages_lines] at h

/-- A flush empties the queue and changes pages, and nothing else (R23, R78). -/
theorem State.flush_eq (s : State) (t : TrackId) :
    s.flush t = { s with pages := (s.flush t).pages, tracks := s.tracks.set t { s.tracks[t] with queue := [] } } := by
  have h := State.leavePages_eq s s.tracks[t].queue
  unfold State.flush
  rw [h]
  rfl

/-- Every page of the queue leaves the track by its RETAIN flag, and the other pages stay (R23). -/
theorem State.flush_leaves (s : State) (t : TrackId) :
    (∀ p ∈ s.tracks[t].queue, s.pages[p].retain = true →
        (s.flush t).pages[p] = { s.pages[p] with state := .sealed, owner := none }) ∧
      (∀ p ∈ s.tracks[t].queue, s.pages[p].retain = false → (s.flush t).pages[p] = Page.cleared) ∧
      ∀ p : PageId, p ∉ s.tracks[t].queue → (s.flush t).pages[p] = s.pages[p] := by
  have hpage (p : PageId) : (s.flush t).pages[p] = if p ∈ s.tracks[t].queue then s.pages[p].leave else s.pages[p] :=
    State.leavePages_get s _ p
  refine ⟨fun p hp hr => ?_, fun p hp hr => ?_, fun p hp => ?_⟩
  · rw [hpage, if_pos hp, Page.leave, if_pos hr]
  · rw [hpage, if_pos hp, Page.leave, hr]
    rfl
  · rw [hpage, if_neg hp]

/-- A cancelled start takes its track to IDLE, queues Start Cancelled and answers a deferred start reply ABORTED (R66, R69). -/
theorem State.cancelStart_open {s : State} (h : s.isOpen = true) (t : TrackId) (reason : CancelReason) :
    s.cancelStart t reason = { s with
        tracks := (s.settle t .idle).tracks, link := (s.cancelStart t reason).link
        events := s.events.store (.startCancelled t reason) } ∧
      Link.Answered s.link (s.cancelStart t reason).link (.start t) (abortedReply (.start t)) := by
  obtain ⟨hanswered, heq⟩ := (s.settle t .idle).composeAborted_answered (.start t)
  have hopen : ((s.settle t .idle).composeAborted (.start t)).isOpen = true := by rw [heq]; exact h
  have hcancel : s.cancelStart t reason =
      { s with
        tracks := (s.settle t .idle).tracks, link := ((s.settle t .idle).composeAborted (.start t)).link
        events := s.events.store (.startCancelled t reason) } := by
    rw [State.cancelStart, State.queueEvent_open hopen, heq]
    rfl
  rw [hcancel]
  exact ⟨rfl, hanswered⟩

/-- With no start to cancel or remove, emptying the queue is all a flush does (R78). -/
theorem State.flush_afterFlush_of_noStart {v : State} {t : TrackId} (harmed : ∀ a, v.tracks[t].state ≠ .armed a)
    (hholding : ∀ r : Stamp, v.tracks[t].state ≠ .holding (some r)) : (v.flush t).afterFlush t = v.flush t := by
  have hstate : (v.flush t).tracks[t].state = v.tracks[t].state := by rw [State.flush_get, if_pos rfl]
  unfold State.afterFlush
  rw [hstate]
  split
  · rename_i a ha
    exact absurd ha (harmed a)
  · rename_i r hr
    exact absurd hr (hholding r)
  all_goals rfl

/-- An armed start is cancelled FLUSHED (R66, R69, R78). -/
theorem State.flush_afterFlush_of_armed {v : State} {t : TrackId} {a : ArmedStart} (hopen : v.isOpen = true)
    (ha : v.tracks[t].state = .armed a) :
    let u := (v.flush t).afterFlush t
    u = { v with
        pages := (v.flush t).pages, link := u.link, events := v.events.store (.startCancelled t .flushed)
        tracks := v.tracks.set t { v.tracks[t] with
          state := .idle, queue := [], hold := false, looping := false, stopRequest := false, pendingConfig := none } } ∧
      Link.Answered v.link u.link (.start t) (abortedReply (.start t)) := by
  have hstate : (v.flush t).tracks[t].state = .armed a := by rw [State.flush_get, if_pos rfl]; exact ha
  have hflush := State.flush_eq v t
  have hw : (v.flush t).isOpen = true := by rw [hflush]; exact hopen
  have hafter : (v.flush t).afterFlush t = (v.flush t).cancelStart t .flushed := by
    unfold State.afterFlush
    rw [hstate]
  obtain ⟨hcancel, hlink⟩ := State.cancelStart_open hw t .flushed
  dsimp only
  rw [hafter]
  generalize (v.flush t).cancelStart t .flushed = u at hcancel hlink ⊢
  rw [hflush] at hcancel hlink
  refine ⟨hcancel.trans ?_, hlink⟩
  simp [State.settle, State.modifyTrack]

/-- A release start is removed with the same event, the track staying HOLDING (R77). -/
theorem State.flush_afterFlush_of_holding {v : State} {t : TrackId} {r : Stamp} (hopen : v.isOpen = true)
    (hr : v.tracks[t].state = .holding (some r)) :
    (v.flush t).afterFlush t = { v with
      pages := (v.flush t).pages, events := v.events.store (.startCancelled t .flushed)
      tracks := v.tracks.set t { v.tracks[t] with state := .holding none, queue := [] } } := by
  have hstate : (v.flush t).tracks[t].state = .holding (some r) := by rw [State.flush_get, if_pos rfl]; exact hr
  have hflush := State.flush_eq v t
  have hw : ((v.flush t).setTrackState t (.holding none)).isOpen = true := by rw [hflush]; exact hopen
  have hafter : (v.flush t).afterFlush t =
      ((v.flush t).setTrackState t (.holding none)).queueEvent (.startCancelled t .flushed) := by
    unfold State.afterFlush
    rw [hstate]
  rw [hafter, State.queueEvent_open hw]
  generalize (v.flush t).pages = pages at hflush ⊢
  rw [hflush]
  simp [State.setTrackState, State.modifyTrack]

theorem answerFlushQueue_eq {v u : State} {t : TrackId} {code : Nat} (hu : (v.flush t).afterFlush t = u)
    (hcode : u.tracks[t].state.code = code) :
    answerFlushQueue (BitVec.ofNat 8 t.val) v = (u, .say .ok (u8 t.val ++ u8 v.tracks[t].queue.length ++ u8 code)) := by
  rw [answerFlushQueue, idBelow_track]
  dsimp only
  rw [hu, State.stateCode_track, hcode]
  rfl

/-- Settles O26: the flush leaves the track's start as it is, and what follows it goes by the track's state. -/
theorem flushQueueReturnsThePages : Obligations.FlushQueueReturnsThePages := by
  unfold Obligations.FlushQueueReturnsThePages
  have request (tag : Byte) (t : TrackId) : IsRequest (.flushQueue tag (BitVec.ofNat 8 t.val)) 0x32 tag :=
    ⟨fun _ => rfl, _, rfl, rfl, rfl⟩
  refine ⟨fun s tag t _ hx harmed hholding _ => ?_, fun s tag t hopen hx => ?_⟩
  · obtain ⟨session, hb⟩ := s.restartSilence_eq
    simp only [hb]
    have hafter := State.flush_afterFlush_of_noStart (v := { s with session := session }) harmed hholding
    have hcode : ((State.flush { s with session := session } t).tracks[t]).state.code = s.tracks[t].state.code := by
      rw [State.flush_get, if_pos rfl]
    exact ⟨_, (request tag t).reply hx hb (answerFlushQueue_eq hafter hcode), State.flush_eq _ t,
      State.flush_leaves { s with session := session } t⟩
  · have hopen' : s.restartSilence.isOpen = true := (State.isOpen_restartSilence s).trans hopen
    obtain ⟨session, hb⟩ := s.restartSilence_eq
    rw [hb] at hopen'
    simp only [hb]
    have hleaves := State.flush_leaves { s with session := session } t
    refine ⟨fun a ha => ?_, fun r hr => ?_⟩
    · obtain ⟨hu, hlink⟩ := State.flush_afterFlush_of_armed (t := t) hopen' ha
      generalize hafter : (State.flush { s with session := session } t).afterFlush t = u at hu hlink
      have hcode : u.tracks[t].state.code = 1 := by
        rw [hu]
        simp [TrackState.code]
      have hpages : u.pages = (State.flush { s with session := session } t).pages := by rw [hu]
      refine ⟨u, (request tag t).reply hx hb (answerFlushQueue_eq hafter hcode), by rw [hpages]; exact hu, fun _ => ?_, hlink⟩
      rw [hpages]
      exact hleaves
    · have hu := State.flush_afterFlush_of_holding (t := t) hopen' hr
      generalize hafter : (State.flush { s with session := session } t).afterFlush t = u at hu
      have hcode : u.tracks[t].state.code = 5 := by
        rw [hu]
        simp [TrackState.code]
      have hpages : u.pages = (State.flush { s with session := session } t).pages := by rw [hu]
      refine ⟨u, (request tag t).reply hx hb (answerFlushQueue_eq hafter hcode), by rw [hpages]; exact hu, fun _ => ?_⟩
      rw [hpages]
      exact hleaves

end Sys2Proof.Machine
end

section
/-! Starts that take effect (R21, R32, R66, R67, R77). -/
namespace Sys2Proof.Machine

/-- In a session the front page is made active with its track's report (R21, R32). -/
theorem State.makeActive_open {w : State} (hopen : w.isOpen = true) {t : TrackId} {p : PageId} {rest : List PageId}
    (hq : w.tracks[t].queue = p :: rest) (start : Stamp) (late : Bool) :
    w.makeActive t start late = { w with
      pages := w.pages.set p { w.pages[p] with state := .active, owner := some t }
      tracks := w.tracks.set t (w.tracks[t].activated p rest start)
      events := if w.tracks[t].reportStarted then w.events.store (.trackStarted t p start late) else w.events } := by
  rw [State.makeActive_cons hq, State.queueEventIf]
  cases w.tracks[t].reportStarted with
  | true =>
    rw [if_pos rfl, if_pos rfl]
    refine (State.queueEvent_open ?_ _).trans rfl
    exact hopen
  | false => rfl

/-- A page whose first step is not at offset 0, or that has none, is entered without an action (R34). -/
theorem State.playFrom_zero_of_later {u : State} {t : TrackId} {c : Playback} (hc : u.tracks[t].state = .playing c)
    (hnext : c.nextStep = 0) (hlater : ∀ st, u.pages[c.page].steps.head? = some st → st.offset ≠ 0) : u.playFrom t 0 = u := by
  unfold State.playFrom
  rw [hc]
  dsimp only
  rw [hnext, List.drop_zero]
  cases hsteps : u.pages[c.page].steps with
  | nil => rfl
  | cons st rest =>
    have hoffset : st.offset.toNat ≠ 0 := fun h0 => hlater st (by rw [hsteps]; rfl) (BitVec.eq_of_toNat_eq h0)
    rw [State.takeSteps, hc]
    exact if_neg hoffset

theorem startedFields_eq (t : TrackId) (p : PageId) (start : Stamp) (late : Bool) :
    startedFields t p start late =
      u8 t.val ++ u8 0 ++ u8 0 ++ u8 (2 + late.toNat) ++ u8 p.val ++ le48 start ++ u8 0 ++ u32 0 := by
  cases late <;> rfl

/-- Settles O33: at its due time a start makes the front page active, and the timeline's advance touches nothing of it. -/
theorem startsMakeTheFrontPageActive : Obligations.StartsMakeTheFrontPageActive := by
  unfold Obligations.StartsMakeTheFrontPageActive
  intro s t p rest d start hq _
  have hqueue : (s.afterPeriods d).tracks[t].queue = p :: rest := by rw [State.afterPeriods_tracks]; exact hq
  have hactive (hopen : (s.afterPeriods d).isOpen = true) (late : Bool) := State.makeActive_open hopen hqueue start late
  simp only [State.afterPeriods_pages, State.afterPeriods_tracks, State.afterPeriods_events] at hactive
  refine ⟨fun hopen late reply hst hdue => ?_, fun hopen hst hdue => ?_, ?_⟩
  · have heffect : (s.afterPeriods d).startEffect t =
        (((s.afterPeriods d).makeActive t start late).compose (.start t) .ok (startedFields t p start late)).playFrom t 0 := by
      unfold State.startEffect
      rw [State.afterPeriods_tracks, hst, hq]
    rw [hactive hopen late, startedFields_eq] at heffect
    exact congrArg Host.Outcome.next ((State.atDue_of_dueAfter hdue _).trans heffect)
  · have heffect : (s.afterPeriods d).releaseEffect t = ((s.afterPeriods d).makeActive t start false).playFrom t 0 := by
      unfold State.releaseEffect
      rw [State.afterPeriods_tracks, hst]
    rw [hactive hopen false] at heffect
    exact congrArg Host.Outcome.next ((State.atDue_of_dueAfter hdue _).trans heffect)
  · rintro u ⟨c, hc, hnext, hlater⟩
    exact State.playFrom_zero_of_later hc hnext hlater

end Sys2Proof.Machine
end

section
/-! Requests that name a unit the part does not have (R2, R12, R15, R17, R18, R50, R57, R62, R71 to R80, R87, R94, R95, R126). -/
namespace Sys2Proof.Machine

section
variable {u : State} {x : Byte}

/-! ### A track that does not exist -/

theorem State.startRefusal_of_ge (hx : 8 ≤ x.toNat) : u.startRefusal x = [x] ++ zeros 15 := by
  rw [State.startRefusal, State.stateCode, idBelow_ge hx]
  rfl

theorem startBadValue_of_ge (hx : 8 ≤ x.toNat) : startBadValue x u = (u, .say .badValue ([x] ++ zeros 15)) := by
  rw [startBadValue, State.startRefusal_of_ge hx]

theorem startTrack_of_ge (hx : 8 ≤ x.toNat) (options : Byte) (form : Except Status StartForm) (effect : State → State) :
    startTrack x options form effect u = (u, .say .badValue ([x] ++ zeros 15)) := by
  rw [startTrack, idBelow_ge hx, ← State.startRefusal_of_ge hx]

/-- Whatever else a start holds, it is refused for its track (R62, R168). -/
theorem starts_of_ge (hx : 8 ≤ x.toNat) (options trigger : Byte) (time : Stamp) (offset : Word32) :
    answerStartAt x options trigger time offset u = (u, .say .badValue ([x] ++ zeros 15)) ∧
      answerStartAfter x options trigger time offset u = (u, .say .badValue ([x] ++ zeros 15)) ∧
      answerStartOnTrigger x options trigger time offset u = (u, .say .badValue ([x] ++ zeros 15)) ∧
      answerStartAtEpoch x options trigger time offset u = (u, .say .badValue ([x] ++ zeros 15)) := by
  refine ⟨?_, ?_, ?_, ?_⟩
  · unfold answerStartAt
    rw [startBadValue_of_ge hx, startTrack_of_ge hx, ite_self]
  · unfold answerStartAfter
    rw [startBadValue_of_ge hx, startTrack_of_ge hx, ite_self]
  · unfold answerStartOnTrigger
    split
    · exact startBadValue_of_ge hx
    · rw [startBadValue_of_ge hx, startTrack_of_ge hx, ite_self]
  · unfold answerStartAtEpoch
    rw [startBadValue_of_ge hx, startTrack_of_ge hx, ite_self]

/-- The requests of a track's set-up and state, refused for their track. -/
theorem trackRequests_of_ge (hx : 8 ≤ x.toNat) (enable policy options page : Byte) (group rest : LineSet) :
    answerConfigureTrack x enable policy options group rest u = (u, .say .badValue [x, 0, 0]) ∧
      answerQueuePage page x u = (u, .say .badValue [x, page, 0, 0]) ∧
      answerFlushQueue x u = (u, .say .badValue (zeros 3)) ∧
      answerStopAbort x u = (u, .say .badValue (zeros 8)) ∧ answerStopEnd x u = (u, .say .badValue (zeros 8)) ∧
      answerHoldTrack x u = (u, .say .badValue (zeros 2)) ∧ answerReleaseTrack x u = (u, .say .badValue (zeros 8)) ∧
      answerReadTrack x u = (u, .say .badValue (zeros 65)) := by
  have hfields : u.queueFields page x = [x, page, 0, 0] := by
    rw [State.queueFields, State.stateCode, idBelow_ge hx]
    rfl
  refine ⟨?_, ?_, ?_, ?_, ?_, ?_, ?_, ?_⟩
  · rw [answerConfigureTrack, idBelow_ge hx]
    dsimp only
    rw [State.configureFields, State.stateCode, idBelow_ge hx]
    rfl
  · rw [answerQueuePage, idBelow_ge hx, hfields]
    cases idBelow 64 page <;> rfl
  · rw [answerFlushQueue, idBelow_ge hx]
  · rw [answerStopAbort, idBelow_ge hx]
  · rw [answerStopEnd, idBelow_ge hx]
  · rw [answerHoldTrack, idBelow_ge hx]
  · rw [answerReleaseTrack, idBelow_ge hx]
  · rw [answerReadTrack, idBelow_ge hx]

/-! ### A page that does not exist -/

theorem answerAppendSteps_of_ge (hx : 64 ≤ x.toNat) (reserved : Byte) (records : List StepRecord) :
    answerAppendSteps x reserved records u = (u, .say .badValue ([x, 0] ++ u16 u.freeSlots ++ [0])) := by
  have hfields : u.appendFields x 0 = [x, 0] ++ u16 u.freeSlots ++ [0] := by
    rw [State.appendFields, idBelow_ge hx]
    rfl
  rw [answerAppendSteps, idBelow_ge hx, hfields, ite_self]

theorem answerQueuePage_of_page_ge (hx : 64 ≤ x.toNat) (t : TrackId) :
    answerQueuePage x (BitVec.ofNat 8 t.val) u =
      (u, .say .badValue (u8 t.val ++ [x] ++ u8 u.tracks[t].queue.length ++ u8 u.tracks[t].state.code)) := by
  rw [answerQueuePage, idBelow_ge hx, ← State.queueFields_track]

/-- The other requests of a page, refused for it. -/
theorem pageRequests_of_ge (hx : 64 ≤ x.toNat) (first : Byte) :
    answerSealPage x u = (u, .say .badValue (zeros 5)) ∧ answerDiscardPage x u = (u, .say .badValue (zeros 4)) ∧
      answerReadPage x first u = (u, .say .badValue (zeros 11)) := by
  rw [answerSealPage, answerDiscardPage, answerReadPage, idBelow_ge hx]
  exact ⟨rfl, rfl, rfl⟩

/-! ### A trigger or a line that does not exist -/

theorem armTrigger_of_trigger_ge (hx : 4 ≤ x.toNat) (line sense count flags : Byte) :
    answerArmTrigger x line sense count flags u = (u, .say .badValue [x, 0]) := by
  have hfields : u.armFields x = [x, 0] := by
    rw [State.armFields, idBelow_ge hx]
    rfl
  rw [answerArmTrigger, idBelow_ge hx, hfields]

theorem armTrigger_of_line_ge (hx : 16 ≤ x.toNat) (k : TriggerId) (sense count flags : Byte) :
    answerArmTrigger (BitVec.ofNat 8 k.val) x sense count flags u =
      (u, .say .badValue (u8 k.val ++ u8 u.triggers[k].latch.code)) := by
  have hfields : u.armFields (BitVec.ofNat 8 k.val) = u8 k.val ++ u8 u.triggers[k].latch.code := by
    rw [State.armFields, idBelow_trigger]
    rfl
  rw [answerArmTrigger, idBelow_ge hx, idBelow_trigger, hfields]

theorem triggerRequests_of_ge (hx : 4 ≤ x.toNat) :
    answerDisarmTrigger x u = (u, .say .badValue (zeros 3)) ∧ answerReadTrigger x u = (u, .say .badValue (zeros 28)) := by
  rw [answerDisarmTrigger, answerReadTrigger, idBelow_ge hx]
  exact ⟨rfl, rfl⟩

theorem answerStartOnTrigger_of_trigger_ge (hx : 4 ≤ x.toNat) (t : TrackId) (options : Byte) (time : Stamp)
    (offset : Word32) :
    answerStartOnTrigger (BitVec.ofNat 8 t.val) options x time offset u =
      (u, .say .badValue (u8 t.val ++ u8 u.tracks[t].state.code ++ zeros 14)) := by
  rw [answerStartOnTrigger, idBelow_ge hx]
  dsimp only
  rw [startBadValue, State.startRefusal, State.stateCode_track]
  rfl

theorem answerConfigureLine_of_ge (hx : 16 ≤ x.toNat) (role rest filter capture : Byte) :
    answerConfigureLine x role rest filter capture u = (u, .say .badValue [x, 0, 0]) := by
  have hfields (withLevel : Bool) : u.lineFields x withLevel = [x, 0, 0] := by
    rw [State.lineFields, idBelow_ge hx]
    rfl
  rw [answerConfigureLine, idBelow_ge hx, hfields]

end

/-- A request that its owner refuses BAD_VALUE at once. -/
theorem IsRequest.refused {i : Instr} {kind tag : Byte} (hi : IsRequest i kind tag) {s b : State} (hb : s.restartSilence = b)
    {fields : List Byte} (ha : ownerOf i b = (b, .say .badValue fields)) (h : s.Executes kind tag) :
    exec i s = .next (b.answered (kind + 0x80) tag .badValue fields) := hi.reply h hb ha

/-- Settles O54: an id out of range is none, and no check of a request comes before the one that finds it so. -/
theorem unitsThatDoNotExistAreRefused : Obligations.UnitsThatDoNotExistAreRefused := by
  unfold Obligations.UnitsThatDoNotExistAreRefused
  intro s tag x a b c d group rest time offset _
  obtain ⟨session, hb⟩ := s.restartSilence_eq
  simp only [hb]
  refine ⟨fun hx => ?_, fun hx => ?_, fun hx => ?_, fun hx => ?_⟩
  · obtain ⟨hseal, hdiscard, hread⟩ := pageRequests_of_ge hx a
    refine ⟨fun records hone hmost => ?_, ?_, ?_, ?_, fun t => ?_⟩
    · exact (isRequest_appendSteps tag x a hone hmost).refused hb (answerAppendSteps_of_ge hx a records)
    · exact IsRequest.refused ⟨fun _ => rfl, _, rfl, rfl, rfl⟩ hb hseal
    · exact IsRequest.refused ⟨fun _ => rfl, _, rfl, rfl, rfl⟩ hb hdiscard
    · exact IsRequest.refused ⟨fun _ => rfl, _, rfl, rfl, rfl⟩ hb hread
    · exact IsRequest.refused ⟨fun _ => rfl, _, rfl, rfl, rfl⟩ hb (answerQueuePage_of_page_ge hx t)
  · obtain ⟨hat, hafter, hontrigger, hatepoch⟩ := starts_of_ge hx a b time offset
    obtain ⟨hconfigure, hqueue, hflush, habort, hend, hhold, hrelease, hread⟩ := trackRequests_of_ge hx a b c a group rest
    refine ⟨?_, ?_, ?_, ?_, ?_, ?_, ?_, ?_, ?_, ?_, ?_, ?_⟩
    · exact IsRequest.refused ⟨fun _ => rfl, _, rfl, rfl, rfl⟩ hb hconfigure
    · exact IsRequest.refused ⟨fun _ => rfl, _, rfl, rfl, rfl⟩ hb hqueue
    · exact IsRequest.refused ⟨fun _ => rfl, _, rfl, rfl, rfl⟩ hb hflush
    · exact IsRequest.refused ⟨fun _ => rfl, _, rfl, rfl, rfl⟩ hb hat
    · exact IsRequest.refused ⟨fun _ => rfl, _, rfl, rfl, rfl⟩ hb hafter
    · exact IsRequest.refused ⟨fun _ => rfl, _, rfl, rfl, rfl⟩ hb hontrigger
    · exact IsRequest.refused ⟨fun _ => rfl, _, rfl, rfl, rfl⟩ hb hatepoch
    · exact IsRequest.refused ⟨fun _ => rfl, _, rfl, rfl, rfl⟩ hb habort
    · exact IsRequest.refused ⟨fun _ => rfl, _, rfl, rfl, rfl⟩ hb hend
    · exact IsRequest.refused ⟨fun _ => rfl, _, rfl, rfl, rfl⟩ hb hhold
    · exact IsRequest.refused ⟨fun _ => rfl, _, rfl, rfl, rfl⟩ hb hrelease
    · exact IsRequest.refused ⟨fun _ => rfl, _, rfl, rfl, rfl⟩ hb hread
  · obtain ⟨hdisarm, hread⟩ := triggerRequests_of_ge hx
    refine ⟨?_, ?_, ?_, fun t => ?_⟩
    · exact IsRequest.refused ⟨fun _ => rfl, _, rfl, rfl, rfl⟩ hb (armTrigger_of_trigger_ge hx a b c d)
    · exact IsRequest.refused ⟨fun _ => rfl, _, rfl, rfl, rfl⟩ hb hdisarm
    · exact IsRequest.refused ⟨fun _ => rfl, _, rfl, rfl, rfl⟩ hb hread
    · exact IsRequest.refused ⟨fun _ => rfl, _, rfl, rfl, rfl⟩ hb (answerStartOnTrigger_of_trigger_ge hx t a time offset)
  · refine ⟨?_, fun k => ?_⟩
    · exact IsRequest.refused ⟨fun _ => rfl, _, rfl, rfl, rfl⟩ hb (answerConfigureLine_of_ge hx a b c d)
    · exact IsRequest.refused ⟨fun _ => rfl, _, rfl, rfl, rfl⟩ hb (armTrigger_of_line_ge hx k a b c)

end Sys2Proof.Machine
end

section
/-! Hold Track and Release Track (R75, R76). -/
namespace Sys2Proof.Machine

/-- The states in which a track's hold flag can be set and cleared (R75, R76). -/
theorem TrackState.running_cases {st : TrackState} (h : (∃ a, st = .armed a) ∨ st.context ≠ none) :
    (∃ a, st = .armed a) ∨ (∃ p, st = .playing p) ∨ ∃ p g, st = .stalled p g := by
  cases st with
  | armed a => exact .inl ⟨a, rfl⟩
  | playing p => exact .inr (.inl ⟨p, rfl⟩)
  | stalled p g => exact .inr (.inr ⟨p, g, rfl⟩)
  | disabled | idle | holding _ | faulted => simp [TrackState.context] at h

section
variable {u : State} {t : TrackId}

theorem answerHoldTrack_running (h : (∃ a, u.tracks[t].state = .armed a) ∨ u.tracks[t].state.context ≠ none) :
    answerHoldTrack (BitVec.ofNat 8 t.val) u =
      if u.tracks[t].stopRequest then (u, .say .busy (zeros 2))
      else (u.modifyTrack t fun tr => { tr with hold := true }, .say .ok (u8 0 ++ u8 u.tracks[t].state.code)) := by
  rw [answerHoldTrack, idBelow_track]
  obtain ⟨a, h⟩ | ⟨p, h⟩ | ⟨p, g, h⟩ := TrackState.running_cases h <;> simp only [h]

theorem answerReleaseTrack_running (h : (∃ a, u.tracks[t].state = .armed a) ∨ u.tracks[t].state.context ≠ none) :
    answerReleaseTrack (BitVec.ofNat 8 t.val) u =
      if u.tracks[t].hold then
        (u.modifyTrack t fun tr => { tr with hold := false }, .say .ok (u8 0 ++ u8 u.tracks[t].state.code ++ zeros 6))
      else (u, .say .busy (zeros 8)) := by
  rw [answerReleaseTrack, idBelow_track]
  obtain ⟨a, h⟩ | ⟨p, h⟩ | ⟨p, g, h⟩ := TrackState.running_cases h <;> simp only [h]

/-- A track that neither waits, plays nor holds has no hold to set or to release. -/
theorem holdAndRelease_still
    (h : u.tracks[t].state = .idle ∨ u.tracks[t].state = .disabled ∨ u.tracks[t].state = .faulted) :
    answerHoldTrack (BitVec.ofNat 8 t.val) u = (u, .say .busy (zeros 2)) ∧
      answerReleaseTrack (BitVec.ofNat 8 t.val) u = (u, .say .busy (zeros 8)) := by
  rw [answerHoldTrack, answerReleaseTrack, idBelow_track]
  rcases h with h | h | h <;> simp only [h, and_self]

theorem answerHoldTrack_holding {release : Option Stamp} (h : u.tracks[t].state = .holding release) :
    answerHoldTrack (BitVec.ofNat 8 t.val) u = (u, .say .ok (u8 0 ++ u8 u.tracks[t].state.code)) := by
  rw [answerHoldTrack, idBelow_track]
  simp only [h]

theorem answerReleaseTrack_empty {release : Option Stamp} (h : u.tracks[t].state = .holding release)
    (hq : u.tracks[t].queue = []) : answerReleaseTrack (BitVec.ofNat 8 t.val) u = (u, .say .empty (zeros 8)) := by
  rw [answerReleaseTrack, idBelow_track]
  simp only [h, hq]
  rfl

/-- A HOLDING track with a page queued takes a release start a lead ahead of now, unless it has one (R76). -/
theorem answerReleaseTrack_holding {release : Option Stamp} (h : u.tracks[t].state = .holding release)
    (hq : u.tracks[t].queue ≠ []) :
    answerReleaseTrack (BitVec.ofNat 8 t.val) u =
      match release with
      | some start => (u, .say .ok (u8 0 ++ u8 u.tracks[t].state.code ++ le48 start))
      | none => (u.setTrackState t (.holding (some (u.timeline + 64))),
          .say .ok (u8 0 ++ u8 u.tracks[t].state.code ++ le48 (u.timeline + 64))) := by
  rw [answerReleaseTrack, idBelow_track]
  simp only [h, List.isEmpty_eq_false_iff.mpr hq]
  cases release <;> rfl

end

/-- Settles O31: each answer goes by the track's state, then by the one flag or the queue that its rule names. -/
theorem holdAndReleaseSetTheFlag : Obligations.HoldAndReleaseSetTheFlag := by
  unfold Obligations.HoldAndReleaseSetTheFlag
  intro s tag t _
  have hold : IsRequest (.holdTrack tag (BitVec.ofNat 8 t.val)) 0x35 tag := ⟨fun _ => rfl, _, rfl, rfl, rfl⟩
  have release : IsRequest (.releaseTrack tag (BitVec.ofNat 8 t.val)) 0x36 tag := ⟨fun _ => rfl, _, rfl, rfl, rfl⟩
  obtain ⟨session, hb⟩ := s.restartSilence_eq
  have holdRunning := answerHoldTrack_running (u := { s with session := session }) (t := t)
  have releaseRunning := answerReleaseTrack_running (u := { s with session := session }) (t := t)
  have still := holdAndRelease_still (u := { s with session := session }) (t := t)
  have releaseHolding {r} := answerReleaseTrack_holding (u := { s with session := session }) (t := t) (release := r)
  simp only [hb]
  refine ⟨fun hx hrun => ⟨fun hstop => ?_, fun hstop => ?_⟩, fun hx hrun => ⟨fun hhold => ?_, fun hhold => ?_⟩,
    fun hstill => ⟨fun hx => ?_, fun hx => ?_⟩,
    fun r hr => ⟨fun hx => ?_, fun hx hq => ?_, fun hx hq start hstart => ?_⟩, fun hx hr hq => ?_⟩
  · exact hold.reply hx hb ((holdRunning hrun).trans (if_neg (Bool.eq_false_iff.mp hstop)))
  · exact hold.reply hx hb ((holdRunning hrun).trans (if_pos hstop))
  · exact release.reply hx hb ((releaseRunning hrun).trans (if_pos hhold))
  · exact release.reply hx hb ((releaseRunning hrun).trans (if_neg (Bool.eq_false_iff.mp hhold)))
  · exact hold.reply hx hb (still hstill).1
  · exact release.reply hx hb (still hstill).2
  · exact hold.reply hx hb (answerHoldTrack_holding hr)
  · exact release.reply hx hb (answerReleaseTrack_empty hr hq)
  · subst hstart
    exact release.reply hx hb (releaseHolding hr hq)
  · exact release.reply hx hb (releaseHolding hr hq)

end Sys2Proof.Machine
end

section
/-! Start Track: its checks on the track, and on the bytes of each mode (R62 to R65, R168, R186, R187). -/
namespace Sys2Proof.Machine

/-! ### The fields of each mode -/

theorem onlyFlags_one_iff (options : Byte) : onlyFlags 1 options = true ↔ options.toNat < 2 := by
  simp [onlyFlags]

/-- Bytes 4 and 5 of a time field are 0 exactly when it carries a number of four bytes. -/
theorem highBytes_eq_zero_iff (time : Stamp) : time.extractLsb' 32 16 = 0 ↔ time.toNat < 2 ^ 32 := by
  rw [← BitVec.toNat_inj]
  simp only [BitVec.extractLsb'_toNat, BitVec.ofNat_eq_ofNat, BitVec.toNat_ofNat, Nat.shiftRight_eq_div_pow]
  have := time.isLt
  omega

@[simp] theorem highBytes_setWidth (n : Word32) : (n.setWidth 48).extractLsb' 32 16 = 0 := by
  rw [highBytes_eq_zero_iff]
  simp only [BitVec.toNat_setWidth]
  have := n.isLt
  omega

@[simp] theorem lowBytes_setWidth (n : Word32) : (n.setWidth 48).extractLsb' 0 32 = n := by
  refine BitVec.eq_of_toNat_eq ?_
  simp only [BitVec.extractLsb'_toNat, BitVec.toNat_setWidth, Nat.shiftRight_zero]
  have := n.isLt
  omega

theorem lowBytes_toNat_le (time : Stamp) : (time.extractLsb' 0 32).toNat ≤ time.toNat := by
  simp only [BitVec.extractLsb'_toNat, Nat.shiftRight_zero]
  exact Nat.mod_le _ _

theorem aheadBy_lead_iff (time now : Stamp) : aheadBy Config.lead time now = true ↔ 64 ≤ (time - now).toInt := by
  simp [aheadBy, Config.lead]

/-! ### The checks on the track -/

section
variable {u : State} {t : TrackId} {options : Byte} {effect : State → State}

theorem State.startRefusal_track (u : State) (t : TrackId) :
    u.startRefusal (BitVec.ofNat 8 t.val) = u8 t.val ++ u8 u.tracks[t].state.code ++ zeros 14 := by
  rw [State.startRefusal, State.stateCode_track]
  rfl

/-- Every refusal of a start gives the track and its state, and changes nothing (R62). -/
theorem startBadValue_track (u : State) (t : TrackId) :
    startBadValue (BitVec.ofNat 8 t.val) u =
      (u, .say .badValue (u8 t.val ++ u8 u.tracks[t].state.code ++ zeros 14)) := by
  rw [startBadValue, State.startRefusal_track]

theorem startTrack_busy (h : u.tracks[t].state ≠ .idle) (form : Except Status StartForm) :
    startTrack (BitVec.ofNat 8 t.val) options form effect u =
      (u, .say .busy (u8 t.val ++ u8 u.tracks[t].state.code ++ zeros 14)) := by
  rw [startTrack, idBelow_track, State.startRefusal_track]
  dsimp only
  split
  · contradiction
  all_goals rfl

theorem startTrack_empty (h : u.tracks[t].state = .idle) (hq : u.tracks[t].queue = []) (form : Except Status StartForm) :
    startTrack (BitVec.ofNat 8 t.val) options form effect u =
      (u, .say .empty (u8 t.val ++ u8 u.tracks[t].state.code ++ zeros 14)) := by
  rw [startTrack, idBelow_track, State.startRefusal_track]
  simp only [h, hq]
  rfl

/-- An IDLE track with a page queued: the mode's own check and the slot decide (R62). -/
theorem startTrack_idle (h : u.tracks[t].state = .idle) (hq : u.tracks[t].queue ≠ []) (form : Except Status StartForm) :
    startTrack (BitVec.ofNat 8 t.val) options form effect u =
      match form with
      | .error status => (u, .say status (u8 t.val ++ u8 1 ++ zeros 14))
      | .ok form =>
        if flag options 0 && !u.slotFree then (u, .say .windowFull (u8 t.val ++ u8 1 ++ zeros 14))
        else
          ((effect u).setTrackState t (.armed ⟨form, flag options 0⟩),
            if flag options 0 then .deferred (.start t) else .say .ok (armedFields t form)) := by
  rw [startTrack, idBelow_track, State.startRefusal_track]
  simp only [h, List.isEmpty_eq_false_iff.mpr hq]
  rfl

theorem startTrack_refused (h : u.tracks[t].state = .idle) (hq : u.tracks[t].queue ≠ []) (status : Status) :
    startTrack (BitVec.ofNat 8 t.val) options (.error status) effect u = (u, .say status (u8 t.val ++ u8 1 ++ zeros 14)) :=
  startTrack_idle h hq _

/-- Without REPLY_ON_START the track is armed with an OK (R62). -/
theorem startTrack_armed (h : u.tracks[t].state = .idle) (hq : u.tracks[t].queue ≠ []) (form : StartForm) :
    startTrack (BitVec.ofNat 8 t.val) 0 (.ok form) effect u =
      ((effect u).setTrackState t (.armed ⟨form, false⟩), .say .ok (armedFields t form)) :=
  startTrack_idle h hq _

/-- With REPLY_ON_START and a free slot the track is armed and its reply deferred (R66, R172). -/
theorem startTrack_deferred (h : u.tracks[t].state = .idle) (hq : u.tracks[t].queue ≠ []) (hfree : u.slotFree = true)
    (form : StartForm) :
    startTrack (BitVec.ofNat 8 t.val) 1 (.ok form) effect u =
      ((effect u).setTrackState t (.armed ⟨form, true⟩), .deferred (.start t)) :=
  (startTrack_idle h hq _).trans (if_neg (by simp [hfree]))

theorem startTrack_windowFull (h : u.tracks[t].state = .idle) (hq : u.tracks[t].queue ≠ []) (hfull : u.slotFree = false)
    (form : StartForm) :
    startTrack (BitVec.ofNat 8 t.val) 1 (.ok form) effect u = (u, .say .windowFull (u8 t.val ++ u8 1 ++ zeros 14)) :=
  (startTrack_idle h hq _).trans (if_pos (by rw [hfull]; rfl))

/-! ### Each mode with its fields in range -/

variable (u t options)

theorem answerStartAt_eq (ho : options.toNat < 2) (time : Stamp) :
    answerStartAt (BitVec.ofNat 8 t.val) options 0 time 0 u = startTrack (BitVec.ofNat 8 t.val) options
      (if 64 ≤ (time - u.timeline).toInt then .ok (.timed time false) else .error .tooLate) id u := by
  rw [answerStartAt, if_neg (by simp [onlyFlags_one_iff, ho])]
  simp only [aheadBy_lead_iff]

theorem answerStartAfter_eq (ho : options.toNat < 2) {n : Word32} (hn : 64 ≤ n.toNat) :
    answerStartAfter (BitVec.ofNat 8 t.val) options 0 (n.setWidth 48) 0 u = startTrack (BitVec.ofNat 8 t.val) options
      (.ok (.timed (u.timeline + n.setWidth 48) false)) id u := by
  rw [answerStartAfter, lowBytes_setWidth, highBytes_setWidth, if_neg (by simp [onlyFlags_one_iff, ho, Config.lead, hn])]
  rfl

theorem answerStartOnTrigger_eq (ho : options.toNat < 2) (k : TriggerId) (offset : Word32) :
    answerStartOnTrigger (BitVec.ofNat 8 t.val) options (BitVec.ofNat 8 k.val) 0 offset u =
      startTrack (BitVec.ofNat 8 t.val) options (u.triggerStart k offset) (State.takeFiring k) u := by
  rw [answerStartOnTrigger, idBelow_trigger]
  exact if_neg (by simp [onlyFlags_one_iff, ho])

theorem answerStartAtEpoch_eq (ho : options.toNat < 2) (n offset : Word32) :
    answerStartAtEpoch (BitVec.ofNat 8 t.val) options 0 (n.setWidth 48) offset u =
      startTrack (BitVec.ofNat 8 t.val) options (u.epochStart n offset) id u := by
  rw [answerStartAtEpoch, lowBytes_setWidth, highBytes_setWidth, if_neg (by simp [onlyFlags_one_iff, ho])]

end

/-! ### Bytes and modes that are refused -/

/-- Each mode refuses its bytes before it looks at the track (R62, R168, R187). -/
theorem starts_badValue (u : State) (t : TrackId) (options trigger : Byte) (time : Stamp) (offset : Word32) :
    let refused := (u, Answer.say .badValue (u8 t.val ++ u8 u.tracks[t].state.code ++ zeros 14))
    (trigger ≠ 0 ∨ offset ≠ 0 ∨ 2 ≤ options.toNat →
      answerStartAt (BitVec.ofNat 8 t.val) options trigger time offset u = refused) ∧
    (trigger ≠ 0 ∨ offset ≠ 0 ∨ 2 ≤ options.toNat ∨ 2 ^ 32 ≤ time.toNat ∨ time.toNat < 64 →
      answerStartAfter (BitVec.ofNat 8 t.val) options trigger time offset u = refused) ∧
    (4 ≤ trigger.toNat ∨ time ≠ 0 ∨ 2 ≤ options.toNat →
      answerStartOnTrigger (BitVec.ofNat 8 t.val) options trigger time offset u = refused) ∧
    (trigger ≠ 0 ∨ 2 ^ 32 ≤ time.toNat ∨ 2 ≤ options.toNat →
      answerStartAtEpoch (BitVec.ofNat 8 t.val) options trigger time offset u = refused) := by
  have hflags (h : 2 ≤ options.toNat) : (!onlyFlags 1 options) = true := by
    rw [Bool.not_eq_true', ← Bool.not_eq_true, onlyFlags_one_iff]
    exact Nat.not_lt.mpr h
  have hhigh (h : 2 ^ 32 ≤ time.toNat) : time.extractLsb' 32 16 ≠ 0 :=
    fun h0 => Nat.not_lt.mpr h ((highBytes_eq_zero_iff time).mp h0)
  have hlow (h : time.toNat < 64) : (time.extractLsb' 0 32).toNat < Config.lead :=
    Nat.lt_of_le_of_lt (lowBytes_toNat_le time) h
  dsimp only
  rw [← startBadValue_track]
  refine ⟨fun h => if_pos ?_, fun h => if_pos ?_, fun h => ?_, fun h => if_pos ?_⟩
  · exact h.imp_right (.imp_right hflags)
  · rcases h with h | h | h | h | h
    · exact .inl h
    · exact .inr (.inl h)
    · exact .inr (.inr (.inr (.inl (hflags h))))
    · exact .inr (.inr (.inl (hhigh h)))
    · exact .inr (.inr (.inr (.inr (hlow h))))
  · unfold answerStartOnTrigger
    split
    · rfl
    · rename_i k hk
      have hid : ¬4 ≤ trigger.toNat := fun h4 => by rw [idBelow_ge h4] at hk; cases hk
      exact if_pos ((h.resolve_left hid).imp_right hflags)
  · exact h.imp_right (.imp hhigh hflags)

/-- A mode of Start Track that is none of the four spells no request (R186). -/
theorem startCommand_none {mode : Byte} (h : 4 ≤ mode.toNat) (tag track options trigger : Byte) (time : Stamp)
    (offset : Word32) : startCommand tag track mode options trigger time offset = none := by
  unfold startCommand
  split
  case h_5 => rfl
  all_goals omega

/-- A frame of Start Track's kind whose mode is none of the four is refused BAD_VALUE for its track (R62, R186). -/
theorem frameOwner_start_badMode {f : Frame} {track mode : Byte} {rest : List Byte} (hk : f.kind = 0x33)
    (hp : f.payload = track :: mode :: rest) (hlen : rest.length = 12) (hm : 4 ≤ mode.toNat) :
    frameOwner f = startBadValue track := by
  obtain ⟨kind, tag, payload⟩ := f
  dsimp only at hk hp
  subst hk hp
  obtain ⟨o, k, t0, t1, t2, t3, t4, t5, o0, o1, o2, o3, rfl⟩ :
      ∃ a b c d e f g h i j k l, rest = [a, b, c, d, e, f, g, h, i, j, k, l] := by
    match rest, hlen with
    | [a, b, c, d, e, f, g, h, i, j, k, l], _ => exact ⟨a, b, c, d, e, f, g, h, i, j, k, l, rfl⟩
  have hcommand : (⟨0x33, tag, track :: mode :: [o, k, t0, t1, t2, t3, t4, t5, o0, o1, o2, o3]⟩ : Frame).command = none :=
    startCommand_none hm _ _ _ _ _ _
  unfold frameOwner
  rw [hcommand]
  rfl

theorem State.startRefusal_eq (s : State) (track : Byte) :
    s.startRefusal track =
      [track] ++ u8 (if h : track.toNat < 8 then s.tracks[track.toNat].state.code else 0) ++ zeros 14 := by
  unfold State.startRefusal State.stateCode idBelow
  split <;> rfl

/-! ### The requests -/


section
variable {tag track options trigger : Byte} {time : Stamp} {offset : Word32}

theorem isRequest_startAt : IsRequest (.startTrackAt tag track options trigger time offset) 0x33 tag :=
  ⟨fun _ => rfl, _, rfl, rfl, rfl⟩

theorem isRequest_startAfter : IsRequest (.startTrackAfter tag track options trigger time offset) 0x33 tag :=
  ⟨fun _ => rfl, _, rfl, rfl, rfl⟩

theorem isRequest_startOnTrigger : IsRequest (.startTrackOnTrigger tag track options trigger time offset) 0x33 tag :=
  ⟨fun _ => rfl, _, rfl, rfl, rfl⟩

theorem isRequest_startAtEpoch : IsRequest (.startTrackAtEpoch tag track options trigger time offset) 0x33 tag :=
  ⟨fun _ => rfl, _, rfl, rfl, rfl⟩

end

/-- A start in any mode whose bytes are in range comes to the checks on its track (R62). -/
theorem starts_eq_startTrack (u : State) (t : TrackId) {options : Byte} (ho : options.toNat < 2) (tag : Byte)
    (k : TriggerId) (time : Stamp) {n : Word32} (hn : 64 ≤ n.toNat) (offset : Word32) :
    ∀ i ∈ [Instr.startTrackAt tag (BitVec.ofNat 8 t.val) options 0 time 0,
        .startTrackAfter tag (BitVec.ofNat 8 t.val) options 0 (n.setWidth 48) 0,
        .startTrackOnTrigger tag (BitVec.ofNat 8 t.val) options (BitVec.ofNat 8 k.val) 0 offset,
        .startTrackAtEpoch tag (BitVec.ofNat 8 t.val) options 0 (n.setWidth 48) offset],
      IsRequest i 0x33 tag ∧ ∃ form effect, ownerOf i u = startTrack (BitVec.ofNat 8 t.val) options form effect u := by
  simp only [List.forall_mem_cons, List.not_mem_nil, false_implies, implies_true, and_true]
  exact ⟨⟨isRequest_startAt, _, _, answerStartAt_eq u t options ho time⟩,
    ⟨isRequest_startAfter, _, _, answerStartAfter_eq u t options ho hn⟩,
    ⟨isRequest_startOnTrigger, _, _, answerStartOnTrigger_eq u t options ho k offset⟩,
    ⟨isRequest_startAtEpoch, _, _, answerStartAtEpoch_eq u t options ho n offset⟩⟩

/-- Settles O27: each mode's own checks stand before those on the track, and its form of start behind them. -/
theorem startsAreArmedAhead : Obligations.StartsAreArmedAhead := by
  unfold Obligations.StartsAreArmedAhead
  refine ⟨fun s tag t _ hx hidle hq => ?_, fun s tag options t k time n offset _ hx ho hn => ?_,
    fun s tag options trigger t time offset _ hx => ?_, fun s f track mode rest hopen hfresh hk hp hlen hm => ?_,
    fun s tag t n offset _ hx hidle hq => ?_⟩
  · obtain ⟨session, hb⟩ := s.restartSilence_eq
    have at_eq := answerStartAt_eq { s with session := session } t 0 (by decide)
    have after_eq {n : Word32} := answerStartAfter_eq { s with session := session } t 0 (by decide) (n := n)
    have badValue := starts_badValue { s with session := session } t 0 0
    have armed {effect} := startTrack_armed (u := { s with session := session }) (t := t) (effect := effect) hidle hq
    have refused := startTrack_refused (u := { s with session := session }) (t := t) (options := 0) (effect := id) hidle hq
    simp only [hb]
    refine ⟨fun time htime => ?_, fun time htime => ?_, fun d hd => ?_, fun d hd => ?_⟩
    · refine isRequest_startAt.reply hx hb ((at_eq time).trans ?_)
      rw [if_pos htime]
      exact armed _
    · refine isRequest_startAt.reply hx hb ((at_eq time).trans ?_)
      rw [if_neg (Int.not_le.mpr htime)]
      exact refused _
    · exact isRequest_startAfter.reply hx hb ((after_eq hd).trans (armed _))
    · refine isRequest_startAfter.reply hx hb (((badValue (d.setWidth 48) 0).2.1 ?_).trans ?_)
      · refine .inr (.inr (.inr (.inr (Nat.lt_of_le_of_lt ?_ hd))))
        rw [BitVec.toNat_setWidth]
        exact Nat.mod_le _ _
      · simp only [hidle]
        rfl
  · obtain ⟨session, hb⟩ := s.restartSilence_eq
    have starts := starts_eq_startTrack { s with session := session } t ho tag k time hn offset
    have busy {effect} :=
      startTrack_busy (u := { s with session := session }) (t := t) (options := options) (effect := effect)
    have empty {effect} :=
      startTrack_empty (u := { s with session := session }) (t := t) (options := options) (effect := effect)
    simp only [hb]
    refine ⟨fun hbusy i hi => ?_, fun hidle hempty i hi => ?_⟩
    · obtain ⟨request, form, effect, heq⟩ := starts i hi
      exact request.reply hx hb (heq.trans (busy hbusy form))
    · obtain ⟨request, form, effect, heq⟩ := starts i hi
      exact request.reply hx hb (heq.trans (empty hidle hempty form))
  · obtain ⟨session, hb⟩ := s.restartSilence_eq
    obtain ⟨badAt, badAfter, badOnTrigger, badAtEpoch⟩ :=
      starts_badValue { s with session := session } t options trigger time offset
    simp only [hb]
    exact ⟨fun h => isRequest_startAt.reply hx hb (badAt h), fun h => isRequest_startAfter.reply hx hb (badAfter h),
      fun h => isRequest_startOnTrigger.reply hx hb (badOnTrigger h),
      fun h => isRequest_startAtEpoch.reply hx hb (badAtEpoch h)⟩
  · have hlength : lengthFits f.kind f.payload.length = true := by rw [hk, hp]; simp [hlen, lengthFits, fixedLength]
    have howner : frameOwner f s = (s, .reply .badValue (s.startRefusal track) 0) := by
      rw [frameOwner_start_badMode hk hp hlen hm]
      rfl
    rw [State.dispatch_executed _ (by rw [hk]; rfl) hlength (.inl hopen) hfresh, State.execute_reply howner, hk,
      State.startRefusal_eq]
    rfl
  · obtain ⟨session, hb⟩ := s.restartSilence_eq
    have epoch_eq := answerStartAtEpoch_eq { s with session := session } t 0 (by decide) n offset
    have armed := startTrack_armed (u := { s with session := session }) (t := t) (effect := id) hidle hq
    have refused := startTrack_refused (u := { s with session := session }) (t := t) (options := 0) (effect := id) hidle hq
    simp only [hb]
    refine ⟨fun hn => ?_, fun hn hseek => ?_, fun hn hseek => ?_⟩
    · refine isRequest_startAtEpoch.reply hx hb (epoch_eq.trans ?_)
      rw [State.epochStart, if_pos hn]
      exact refused _
    · refine isRequest_startAtEpoch.reply hx hb (epoch_eq.trans ?_)
      rw [State.epochStart, if_neg (Nat.not_le.mpr hn), if_pos hseek]
      exact refused _
    · refine isRequest_startAtEpoch.reply hx hb (epoch_eq.trans ?_)
      rw [State.epochStart, if_neg (Nat.not_le.mpr hn), if_neg hseek]
      exact armed _

end Sys2Proof.Machine
end

section
/-! Start Track in mode ON_TRIGGER, and the requests that take a deferred slot (R64, R66, R72, R172). -/
namespace Sys2Proof.Machine

/-! ### The latch -/

/-- A consumed firing changes its trigger alone, and takes no notice of the session (R92). -/
theorem State.consume_withSession (s : State) (session : Session) (k : TriggerId) :
    State.consume { s with session := session } k =
      { s with session := session, triggers := (s.consume k).triggers } := by
  unfold State.consume
  dsimp only
  split
  · rfl
  split <;> rfl

section
variable {u : State} {k : TriggerId}

theorem State.triggerStart_disarmed (h : u.triggers[k].latch = .disarmed) (offset : Word32) :
    u.triggerStart k offset = .error .busy := by
  unfold State.triggerStart; rw [h]

/-- An ARMED or BLOCKED trigger is joined, and its latch stays as it is (R64). -/
theorem State.triggerStart_waiting (h : u.triggers[k].latch = .armed ∨ u.triggers[k].latch = .blocked) (offset : Word32) :
    u.triggerStart k offset = .ok (.onTrigger k offset) ∧ State.takeFiring k u = u := by
  unfold State.triggerStart State.takeFiring
  rcases h with h | h <;> rw [h] <;> exact ⟨rfl, rfl⟩

/-- A held firing is consumed, by a start at its stamp plus the offset if that keeps the lead (R64). -/
theorem State.triggerStart_fired {f c : Stamp} {overrun : Bool} (h : u.triggers[k].latch = .fired f c overrun)
    (offset : Word32) :
    u.triggerStart k offset = (if 64 ≤ (f + offset.setWidth 48 - u.timeline).toInt
        then .ok (.timed (f + offset.setWidth 48) false) else .error .tooLate) ∧
      State.takeFiring k u = u.consume k := by
  unfold State.triggerStart State.takeFiring
  rw [h]
  simp only [aheadBy_lead_iff, and_true]
  rfl

end

/-- Settles O28: the latch gives the form of the start or its refusal, and what becomes of the firing. -/
theorem triggerStartsFollowTheLatch : Obligations.TriggerStartsFollowTheLatch := by
  unfold Obligations.TriggerStartsFollowTheLatch
  intro s tag t k offset _ hx hidle hq
  obtain ⟨session, hb⟩ := s.restartSilence_eq
  have on_trigger := answerStartOnTrigger_eq { s with session := session } t 0 (by decide) k offset
  have disarmed := State.triggerStart_disarmed (u := { s with session := session }) (k := k)
  have waiting := State.triggerStart_waiting (u := { s with session := session }) (k := k)
  have fired {f c o} := State.triggerStart_fired (u := { s with session := session }) (k := k) (f := f) (c := c) (overrun := o)
  have armed {effect} := startTrack_armed (u := { s with session := session }) (t := t) (effect := effect) hidle hq
  have refused {effect} := startTrack_refused (u := { s with session := session }) (t := t) (options := 0) (effect := effect)
    hidle hq
  simp only [hb]
  refine ⟨fun hl => ?_, fun hl => ?_, fun f c o hl => ⟨fun hlead => ?_, fun hlead => ?_⟩⟩
  · refine isRequest_startOnTrigger.reply hx hb (on_trigger.trans ?_)
    rw [disarmed hl]
    exact refused _
  · refine isRequest_startOnTrigger.reply hx hb (on_trigger.trans ?_)
    rw [(waiting hl offset).1, armed, (waiting hl offset).2]
    rfl
  · refine isRequest_startOnTrigger.reply hx hb (on_trigger.trans ?_)
    rw [(fired hl offset).1, if_neg (Int.not_le.mpr hlead)]
    exact refused _
  · refine isRequest_startOnTrigger.reply hx hb (on_trigger.trans ?_)
    rw [(fired hl offset).1, if_pos hlead, armed, (fired hl offset).2, State.consume_withSession]
    rfl

/-! ### Deferred requests -/

/-- A request that is executed and deferred takes a slot (R172). -/
theorem IsRequest.defers {i : Instr} {kind tag : Byte} (hi : IsRequest i kind tag) {s s' : State} {owner : Owner}
    (h : s.Executes kind tag) {b : State} (hb : s.restartSilence = b) (ha : ownerOf i b = (s', .deferred owner)) :
    exec i s = .next (s'.defer owner tag) := by
  subst hb
  obtain ⟨payload, hframe, hkind, hlen⟩ := hi.framed
  rw [hi.exec_eq, State.request_executed _ h hframe hkind hlen, State.execute_deferred ha]

theorem State.slotFree_iff (s : State) : s.slotFree = true ↔ s.heldSlots < 4 := decide_eq_true_iff

theorem State.slotFree_eq_false_iff (s : State) : s.slotFree = false ↔ 4 ≤ s.heldSlots :=
  decide_eq_false_iff_not.trans Nat.not_lt

/-- A start with REPLY_ON_START that passes its mode's check is deferred, or refused for want of a slot (R62, R66, R172). -/
theorem IsRequest.defersStart {i : Instr} {tag : Byte} (hi : IsRequest i 0x33 tag) {s b : State} (hb : s.restartSilence = b)
    (h : s.Executes 0x33 tag) {t : TrackId} (hidle : b.tracks[t].state = .idle) (hq : b.tracks[t].queue ≠ [])
    {form : StartForm} {effect : State → State}
    (ha : ownerOf i b = startTrack (BitVec.ofNat 8 t.val) 1 (.ok form) effect b) :
    (b.heldSlots < 4 → exec i s = .next (((effect b).setTrackState t (.armed ⟨form, true⟩)).defer (.start t) tag)) ∧
    (4 ≤ b.heldSlots → exec i s = .next (b.answered 0xB3 tag .windowFull (u8 t.val ++ u8 1 ++ zeros 14))) :=
  ⟨fun hfree => hi.defers h hb (ha.trans (startTrack_deferred hidle hq (b.slotFree_iff.mpr hfree) form)),
    fun hfull => hi.reply h hb (ha.trans (startTrack_windowFull hidle hq (b.slotFree_eq_false_iff.mpr hfull) form))⟩

/-- Stop Track END on a PLAYING or STALLED track: one stop request, while a slot is free (R72). -/
theorem answerStopEnd_running {u : State} {t : TrackId} (h : u.tracks[t].state.context ≠ none) :
    answerStopEnd (BitVec.ofNat 8 t.val) u =
      if u.tracks[t].stopRequest then (u, .say .busy (zeros 8))
      else if 4 ≤ u.heldSlots then (u, .say .windowFull (zeros 8))
      else (u.modifyTrack t fun tr => { tr with stopRequest := true }, .deferred (.stopEnd t)) := by
  rw [answerStopEnd, idBelow_track]
  simp only [Bool.not_eq_true', State.slotFree_eq_false_iff]
  split
  · rfl
  · rfl
  all_goals
    rename_i hst
    rw [hst] at h
    exact absurd rfl h

theorem isRequest_stopEnd {tag track : Byte} : IsRequest (.stopTrackEnd tag track) 0x34 tag :=
  ⟨fun _ => rfl, _, rfl, rfl, rfl⟩

theorem isRequest_stopAbort {tag track : Byte} : IsRequest (.stopTrackAbort tag track) 0x34 tag :=
  ⟨fun _ => rfl, _, rfl, rfl, rfl⟩

/-- Settles O29: behind its mode's own check a start with REPLY_ON_START asks for a slot alone, and so does a first Stop
Track END. -/
theorem deferringRequestsTakeASlot : Obligations.DeferringRequestsTakeASlot := by
  unfold Obligations.DeferringRequestsTakeASlot
  refine ⟨fun s tag t _ hx hidle hq => ?_, fun s tag t _ hx hrun => ?_⟩
  · obtain ⟨session, hb⟩ := s.restartSilence_eq
    have on_trigger := answerStartOnTrigger_eq { s with session := session } t 1 (by decide)
    have waiting {k} := State.triggerStart_waiting (u := { s with session := session }) (k := k)
    have fired {k f c o} :=
      State.triggerStart_fired (u := { s with session := session }) (k := k) (f := f) (c := c) (overrun := o)
    simp only [hb]
    refine ⟨fun time htime => ?_, fun n hn => ?_, fun k offset hl => ?_, fun k offset f c o hl hlead => ?_,
      fun n offset hn hseek => ?_⟩
    · refine isRequest_startAt.defersStart hb hx hidle hq (effect := id) ((answerStartAt_eq _ t 1 (by decide) time).trans ?_)
      rw [if_pos htime]
    · exact isRequest_startAfter.defersStart hb hx hidle hq (answerStartAfter_eq _ t 1 (by decide) hn)
    · have start := isRequest_startOnTrigger.defersStart hb hx hidle hq
        ((on_trigger k offset).trans (by rw [(waiting hl offset).1]))
      rwa [(waiting hl offset).2] at start
    · have start := isRequest_startOnTrigger.defersStart hb hx hidle hq
        ((on_trigger k offset).trans (by rw [(fired hl offset).1, if_pos hlead]))
      rwa [(fired hl offset).2, State.consume_withSession] at start
    · refine isRequest_startAtEpoch.defersStart hb hx hidle hq (effect := id)
        ((answerStartAtEpoch_eq _ t 1 (by decide) n offset).trans ?_)
      rw [State.epochStart, if_neg (Nat.not_le.mpr hn), if_neg hseek]
  · obtain ⟨session, hb⟩ := s.restartSilence_eq
    have stop := answerStopEnd_running (u := { s with session := session }) (t := t) hrun
    simp only [hb]
    refine ⟨fun hstop => ?_, fun hstop hfull => ?_, fun hstop hfree => ?_⟩
    · exact isRequest_stopEnd.reply hx hb (stop.trans (if_pos hstop))
    · exact isRequest_stopEnd.reply hx hb (stop.trans ((if_neg (Bool.eq_false_iff.mp hstop)).trans (if_pos hfull)))
    · exact isRequest_stopEnd.defers hx hb
        (stop.trans ((if_neg (Bool.eq_false_iff.mp hstop)).trans (if_neg (Nat.not_le.mpr hfree))))

end Sys2Proof.Machine
end

section
/-! The run end (R40 to R49, R73). -/
namespace Sys2Proof.Machine

/-! ### The pending configuration -/

theorem State.applyPending_none {s : State} {t : TrackId} (h : s.tracks[t].pendingConfig = none) : s.applyPending t = s := by
  unfold State.applyPending; rw [h]

theorem State.applyPending_some {s : State} {t : TrackId} {q : PendingConfig} (h : s.tracks[t].pendingConfig = some q) :
    s.applyPending t = { s with
      tracks := s.tracks.set t { s.tracks[t] with
        policy := q.policy, reportStarted := q.reportStarted, reportRetired := q.reportRetired, pendingConfig := none }
      lines := (s.storeRest s.tracks[t].group q.rest).lines } := by
  unfold State.applyPending; rw [h]; rfl

/-- Once applied, no configuration is pending (R55). -/
theorem State.applyPending_pendingConfig (s : State) (t : TrackId) : (s.applyPending t).tracks[t].pendingConfig = none := by
  rw [State.applyPending_track, if_pos rfl]

@[simp] theorem State.applyPending_applyPending (s : State) (t : TrackId) :
    (s.applyPending t).applyPending t = s.applyPending t := State.applyPending_none (s.applyPending_pendingConfig t)

theorem State.runEnd_applyPending (s : State) (t : TrackId) (p : Playback) : (s.applyPending t).runEnd t p = s.runEnd t p := by
  simp only [State.runEnd, State.applyPending_applyPending]

/-! ### Retirement and rest -/

/-- An event queued in an open session if it is wanted goes to the event unit. -/
theorem State.queueEventIf_open {s : State} (h : s.isOpen = true) (wanted : Bool) (e : Event) :
    s.queueEventIf wanted e = { s with events := if wanted then s.events.store e else s.events } := by
  cases wanted with
  | true => exact State.queueEvent_open h e
  | false => rfl

/-- In a session the active page leaves its track with its track's report (R22). -/
theorem State.retire_open {s : State} (h : s.isOpen = true) (t : TrackId) (p : Playback) (outcome : RetireOutcome) :
    s.retire t p outcome = { s with
      pages := s.pages.set p.page s.pages[p.page].leave
      events := if s.tracks[t].reportRetired
        then s.events.store (.pageRetired t p.page s.timeline outcome p.repsPlayed) else s.events } :=
  State.queueEventIf_open (s := s.modifyPage p.page Page.leave) h _ _

/-- A track's record in IDLE, HOLDING or FAULTED where no configuration was pending (R28). -/
def Track.settled (tr : Track) (st : TrackState) : Track :=
  { tr with state := st, hold := false, looping := false, stopRequest := false }

theorem State.settle_eq {s : State} {t : TrackId} (h : s.tracks[t].pendingConfig = none) (st : TrackState) :
    s.settle t st = { s with tracks := s.tracks.set t (s.tracks[t].settled st) } := by
  unfold State.settle State.modifyTrack Track.settled
  rw [h]

/-- The active page retired and its track settled, in a session (R22, R28). -/
theorem State.retire_settle_open {s : State} (hopen : s.isOpen = true) {t : TrackId}
    (hnone : s.tracks[t].pendingConfig = none) (p : Playback) (outcome : RetireOutcome) (st : TrackState) :
    (s.retire t p outcome).settle t st = { s with
      pages := s.pages.set p.page s.pages[p.page].leave
      tracks := s.tracks.set t (s.tracks[t].settled st)
      events := if s.tracks[t].reportRetired
        then s.events.store (.pageRetired t p.page s.timeline outcome p.repsPlayed) else s.events } := by
  have hretire := State.retire_open hopen t p outcome
  rw [State.settle_eq (by rw [hretire]; exact hnone), hretire]

/-- Rest application after a track has settled is on the lines of its group (R29). -/
theorem State.settle_applyRest (s : State) (t : TrackId) (st : TrackState) :
    (s.settle t st).applyRest t = (s.settle t st).restLines s.tracks[t].group := by
  rw [State.applyRest, State.settle_get, if_pos rfl]

/-! ### The outcomes of a run end -/

section
variable {s : State} {t : TrackId} {c : Playback}

/-- With no configuration pending the first condition that holds decides (R40). -/
theorem State.runEnd_eq (hnone : s.tracks[t].pendingConfig = none) :
    s.runEnd t c =
      if s.tracks[t].stopRequest then
        ((((s.retire t c .complete).settle t .idle).restLines s.tracks[t].group).compose (.stopEnd t) .ok
          (zeros 2 ++ le48 s.timeline)).queueEvent (.trackStopped t s.timeline .atEnd)
      else if s.pages[c.page].holdAfter || s.tracks[t].hold then
        ((s.retire t c .complete).settle t (.holding none)).queueEvent (.trackHeld t s.timeline)
      else if s.tracks[t].queue ≠ [] then (s.retire t c .complete).makeActive t s.timeline false
      else s.underrun t c := by
  rw [State.runEnd, State.applyPending_none hnone, State.settle_applyRest, State.retire_tracks]
  rfl

/-- An advance makes the queue's front page active at the end stamp, the page that ended having left (R43). -/
theorem State.retire_makeActive_open (hopen : s.isOpen = true) {p : PageId} {rest : List PageId}
    (hq : s.tracks[t].queue = p :: rest) (hp : p ≠ c.page) (start : Stamp) :
    (s.retire t c .complete).makeActive t start false =
      let retired := if s.tracks[t].reportRetired
        then s.events.store (.pageRetired t c.page s.timeline .complete c.repsPlayed) else s.events
      { s with
        pages := (s.pages.set c.page s.pages[c.page].leave).set p { s.pages[p] with state := .active, owner := some t }
        tracks := s.tracks.set t (s.tracks[t].activated p rest start)
        events := if s.tracks[t].reportStarted then retired.store (.trackStarted t p start false) else retired } := by
  have hretire := State.retire_open hopen t c .complete
  have hpage : (s.pages.set c.page s.pages[c.page].leave)[p] = s.pages[p] := State.modifyPage_other s c.page p Page.leave hp.symm
  rw [State.makeActive_open (by rw [hretire]; exact hopen) (by rw [hretire]; exact hq), hretire]
  dsimp only
  rw [hpage]

/-- The four policies of an underrun (R44 to R47). -/
theorem State.underrun_eq (s : State) (t : TrackId) (c : Playback) :
    (s.tracks[t].policy = .holdLevels → s.underrun t c =
      ((s.retire t c .complete).settle t (.holding none)).queueEvent (.trackUnderrun t .holdLevels s.timeline)) ∧
    (s.tracks[t].policy = .rest → s.underrun t c =
      ((((s.retire t c .complete).settle t .idle).restLines s.tracks[t].group).queueEvent
        (.trackUnderrun t .rest s.timeline)).queueEvent (.trackStopped t s.timeline .underrun)) ∧
    (s.tracks[t].policy = .fault → s.underrun t c =
      (((s.retire t c .complete).settle t .faulted).restLines s.tracks[t].group).queueEvent
        (.trackFault t .underrun s.timeline)) ∧
    (s.tracks[t].policy = .repeatLast → s.underrun t c =
      (s.modifyTrack t fun tr => { tr with
        looping := true
        state := .playing { c with
          runStart := s.timeline, repStart := s.timeline, repIndex := 0, nextStep := 0, stall := 0 } }).queueEventIf
        (!s.tracks[t].looping) (.trackUnderrun t .repeatLast s.timeline)) := by
  simp only [State.underrun, State.settle_applyRest, State.retire_tracks]
  refine ⟨fun h => ?_, fun h => ?_, fun h => ?_, fun h => ?_⟩ <;> rw [h]

end

/-- Settles O36: the conditions of R40 in their order, then the four policies. -/
theorem runEndTakesTheFirstCondition : Obligations.RunEndTakesTheFirstCondition := by
  unfold Obligations.RunEndTakesTheFirstCondition
  refine ⟨fun s t c q hq => ?_, fun s t c hopen hnone => ?_⟩
  · rw [← State.runEnd_applyPending, State.applyPending_some hq]
  dsimp only
  have ended (st : TrackState) := State.retire_settle_open hopen hnone c .complete st
  refine ⟨fun hstop => ?_, fun hstop hhold => ?_, fun hstop hafter hhold => ?_⟩
  · rw [State.runEnd_eq hnone, if_pos hstop, ended]
    rfl
  · rw [State.runEnd_eq hnone, if_neg (Bool.eq_false_iff.mp hstop), if_pos (by rwa [Bool.or_eq_true]), ended]
    rfl
  · have hends : (s.pages[c.page].holdAfter || s.tracks[t].hold) ≠ true := by rw [hafter, hhold]; decide
    rw [State.runEnd_eq hnone, if_neg (Bool.eq_false_iff.mp hstop), if_neg hends]
    refine ⟨fun p rest hq hp => ?_, fun hq => ?_⟩
    · rw [if_pos (by rw [hq]; exact List.cons_ne_nil p rest)]
      exact State.retire_makeActive_open hopen hq hp s.timeline
    · rw [if_neg (not_not.mpr hq)]
      obtain ⟨hholdLevels, hrest, hfault, hrepeatLast⟩ := s.underrun_eq t c
      refine ⟨fun hpolicy => ?_, fun hpolicy => ?_, fun hpolicy => ?_, fun hpolicy => ?_⟩
      · rw [hholdLevels hpolicy, ended]
        rfl
      · rw [hrest hpolicy, ended]
        rfl
      · rw [hfault hpolicy, ended]
        rfl
      · refine (hrepeatLast hpolicy).trans ((State.queueEventIf_open ?_ _ _).trans ?_)
        · exact hopen
        · cases s.tracks[t].looping <;> rfl

end Sys2Proof.Machine
end

section
/-! Stop Track (R66, R69, R71 to R74). -/
namespace Sys2Proof.Machine

/-! ### An abort -/

@[simp] theorem State.abortPage_session (s : State) (t : TrackId) : (s.abortPage t).session = s.session := by
  unfold State.abortPage; split <;> simp

@[simp] theorem State.abortPage_link (s : State) (t : TrackId) : (s.abortPage t).link = s.link := by
  unfold State.abortPage; split <;> simp

@[simp] theorem State.abortTrack_isOpen (s : State) (t : TrackId) : (s.abortTrack t).isOpen = s.isOpen := by
  simp [State.abortTrack, State.isOpen]

@[simp] theorem State.abortTrack_link (s : State) (t : TrackId) : (s.abortTrack t).link = s.link := by
  simp [State.abortTrack]

theorem State.abortTrack_state (s : State) (t : TrackId) : (s.abortTrack t).tracks[t].state = .idle := by
  rw [State.abortTrack, State.applyRest_tracks, State.settle_get, if_pos rfl]

theorem State.restLines_get (s : State) (m : LineSet) (l : LineId) :
    (s.restLines m).lines[l] = if m.getLsbD l then s.lines[l].toRest else s.lines[l] := State.mapLines_get s m _ l

section
variable {s : State} {t : TrackId}

theorem State.abortPage_of_context {c : Playback} (h : s.tracks[t].state.context = some c) :
    s.abortPage t = s.retire t c .aborted := by
  unfold State.abortPage
  split
  · rename_i hst
    rw [hst] at h
    cases h
    rfl
  · rename_i hst
    rw [hst] at h
    cases h
    rfl
  · rename_i hplaying hstalled
    cases hst : s.tracks[t].state with
    | playing p => exact absurd hst (hplaying p)
    | stalled p g => exact absurd hst (hstalled p g)
    | disabled | idle | armed _ | holding _ | faulted => rw [hst] at h; cases h

theorem State.abortPage_of_no_context (h : s.tracks[t].state.context = none) : s.abortPage t = s := by
  unfold State.abortPage
  split
  · rename_i hst
    rw [hst] at h
    cases h
  · rename_i hst
    rw [hst] at h
    cases h
  · rfl

/-- A playing track's page is retired ABORTED, and the track goes to IDLE at rest (R71). -/
theorem State.abortTrack_of_context (hopen : s.isOpen = true) (hnone : s.tracks[t].pendingConfig = none) {c : Playback}
    (h : s.tracks[t].state.context = some c) :
    s.abortTrack t = { s with
      pages := s.pages.set c.page s.pages[c.page].leave
      tracks := s.tracks.set t (s.tracks[t].settled .idle)
      lines := (s.restLines s.tracks[t].group).lines
      events := if s.tracks[t].reportRetired
        then s.events.store (.pageRetired t c.page s.timeline .aborted c.repsPlayed) else s.events } := by
  rw [State.abortTrack, State.applyPending_none hnone, State.abortPage_of_context h, State.settle_applyRest,
    State.retire_tracks, State.retire_settle_open hopen hnone]
  rfl

/-- A track that plays nothing goes to IDLE at rest (R71). -/
theorem State.abortTrack_of_no_context (hnone : s.tracks[t].pendingConfig = none)
    (h : s.tracks[t].state.context = none) :
    s.abortTrack t = { s with
      tracks := s.tracks.set t (s.tracks[t].settled .idle)
      lines := (s.restLines s.tracks[t].group).lines } := by
  rw [State.abortTrack, State.applyPending_none hnone, State.abortPage_of_no_context h, State.settle_applyRest,
    State.settle_eq hnone]
  rfl

/-- What an abort does behind the track's own end: the deferred replies of the track are answered ABORTED, and Track Stopped
is queued (R66, R71, R73). -/
theorem State.stopAbort_open (hopen : s.isOpen = true) :
    s.stopAbort t = { s.abortTrack t with
        link := (s.stopAbort t).link
        events := (s.abortTrack t).events.store (.trackStopped t s.timeline .abort) } ∧
      ∃ mid : Link, Link.Answered s.link mid (.stopEnd t) (abortedReply (.stopEnd t)) ∧
        Link.Answered mid (s.stopAbort t).link (.start t) (abortedReply (.start t)) := by
  obtain ⟨hstop, hstopEq⟩ := (s.abortTrack t).composeAborted_answered (.stopEnd t)
  obtain ⟨hstart, hstartEq⟩ := ((s.abortTrack t).composeAborted (.stopEnd t)).composeAborted_answered (.start t)
  rw [State.abortTrack_link] at hstop
  have hopen' : (((s.abortTrack t).composeAborted (.stopEnd t)).composeAborted (.start t)).isOpen = true := by
    rw [hstartEq, hstopEq]
    exact (s.abortTrack_isOpen t).trans hopen
  have hstopAbort : s.stopAbort t = { s.abortTrack t with
      link := (((s.abortTrack t).composeAborted (.stopEnd t)).composeAborted (.start t)).link
      events := (s.abortTrack t).events.store (.trackStopped t s.timeline .abort) } := by
    rw [State.stopAbort, State.queueEvent_open hopen', hstartEq, hstopEq]
  rw [hstopAbort]
  exact ⟨rfl, _, hstop, hstart⟩

/-- A HOLDING or FAULTED track ends at once (R74). -/
theorem State.stopAtOnce_open (hopen : s.isOpen = true) (hnone : s.tracks[t].pendingConfig = none) :
    s.stopAtOnce t = { s with
      tracks := s.tracks.set t (s.tracks[t].settled .idle)
      lines := (s.restLines s.tracks[t].group).lines
      events := s.events.store (.trackStopped t s.timeline .atEnd) } := by
  rw [State.stopAtOnce, State.settle_applyRest, State.settle_eq hnone]
  refine (State.queueEvent_open ?_ _).trans rfl
  exact hopen

theorem State.stopAbort_state (s : State) (t : TrackId) : (s.stopAbort t).tracks[t].state = .idle := by
  rw [State.stopAbort, State.queueEvent_tracks, State.composeAborted_tracks, State.composeAborted_tracks,
    State.abortTrack_state]

/-- An abort applies the pending configuration itself, so that it does not matter whether it was applied before (R55, R71). -/
theorem State.stopAbort_applyPending (s : State) (t : TrackId) : (s.applyPending t).stopAbort t = s.stopAbort t := by
  simp only [State.stopAbort, State.abortTrack, State.applyPending_applyPending, State.applyPending_timeline]

end

/-! ### The answers -/

section
variable {u : State} {t : TrackId}

theorem answerStopAbort_active (h : u.tracks[t].state ≠ .idle ∧ u.tracks[t].state ≠ .disabled) :
    answerStopAbort (BitVec.ofNat 8 t.val) u = (u.stopAbort t, .say .ok (u8 t.val ++ u8 1 ++ zeros 6)) := by
  rw [answerStopAbort, idBelow_track]
  dsimp only
  rw [State.stopAbort_state]
  split
  · exact absurd ‹_› h.2
  · exact absurd ‹_› h.1
  all_goals rfl

/-- A track that is IDLE or DISABLED is already stopped (R71, R74). -/
theorem answerStop_still (h : u.tracks[t].state = .idle ∨ u.tracks[t].state = .disabled) :
    answerStopAbort (BitVec.ofNat 8 t.val) u = (u, .say .ok (u8 0 ++ u8 u.tracks[t].state.code ++ zeros 6)) ∧
      answerStopEnd (BitVec.ofNat 8 t.val) u = (u, .say .ok (u8 0 ++ u8 u.tracks[t].state.code ++ zeros 6)) := by
  rw [answerStopAbort, answerStopEnd, idBelow_track]
  rcases h with h | h <;> simp only [h, State.stopReply] <;> exact ⟨rfl, rfl⟩

theorem answerStopEnd_atOnce (h : (∃ r, u.tracks[t].state = .holding r) ∨ u.tracks[t].state = .faulted) :
    answerStopEnd (BitVec.ofNat 8 t.val) u = (u.stopAtOnce t, .say .ok (u8 0 ++ u8 1 ++ zeros 6)) := by
  have hidle : (u.stopAtOnce t).tracks[t].state = .idle := by
    rw [State.stopAtOnce, State.queueEvent_tracks, State.applyRest_tracks, State.settle_get, if_pos rfl]
  rw [answerStopEnd, idBelow_track]
  obtain ⟨r, h⟩ | h := h <;> simp only [h, State.stopReply, hidle] <;> rfl

theorem answerStopEnd_armed {a : ArmedStart} (h : u.tracks[t].state = .armed a) :
    answerStopEnd (BitVec.ofNat 8 t.val) u = (u.cancelStart t .stopped, .say .ok (u8 0 ++ u8 1 ++ zeros 6)) := by
  have hidle : (u.cancelStart t .stopped).tracks[t].state = .idle := by
    rw [State.cancelStart_tracks, State.settle_get, if_pos rfl]
  rw [answerStopEnd, idBelow_track]
  simp only [h, State.stopReply, hidle]
  rfl

end

/-- A mode of Stop Track that is neither spells no request, and its frame is refused BAD_VALUE (R71, R186). -/
theorem frameOwner_stop_badMode {f : Frame} {track mode : Byte} (hk : f.kind = 0x34) (hp : f.payload = [track, mode])
    (hm : 2 ≤ mode.toNat) : frameOwner f = fun s => (s, .say .badValue (zeros 8)) := by
  obtain ⟨kind, tag, payload⟩ := f
  dsimp only at hk hp
  subst hk hp
  have hcommand : (⟨0x34, tag, [track, mode]⟩ : Frame).command = none := by
    show stopCommand tag track mode = none
    unfold stopCommand
    split
    case h_3 => rfl
    all_goals omega
  unfold frameOwner
  rw [hcommand]
  rfl

/-! ### A pending configuration -/

/-- The statements' account of an applied configuration is what the part does (R55). -/
theorem State.Applied.eq {s s' : State} {t : TrackId} {q : PendingConfig} (h : s.Applied s' t q) : s' = s.applyPending t := by
  obtain ⟨held, frame, rest⟩ := h
  have hlines : s'.lines = (s.storeRest s.tracks[t].group q.rest).lines := by
    refine Vector.ext fun i hi => ?_
    exact (rest ⟨i, hi⟩).trans (State.mapLines_get s s.tracks[t].group (fun l ln => { ln with rest := q.rest.getLsbD l })
      ⟨i, hi⟩).symm
  rw [frame, hlines, State.applyPending_some held]

theorem State.applyPending_withSession (s : State) (session : Session) (t : TrackId) :
    State.applyPending { s with session := session } t = { s.applyPending t with session := session } := by
  unfold State.applyPending
  dsimp only
  split <;> rfl

@[simp] theorem State.applyPending_isOpen (s : State) (t : TrackId) : (s.applyPending t).isOpen = s.isOpen := by
  simp [State.isOpen]

/-- Whether a request is executed does not depend on a pending configuration. -/
theorem State.Executes.applyPending {s : State} {kind tag : Byte} (h : s.Executes kind tag) (t : TrackId) :
    (s.applyPending t).Executes kind tag := by
  obtain ⟨takes, admits, fresh⟩ := h
  have hbuffered : (s.applyPending t).buffered = s.buffered := by simp [State.buffered]
  have htakes : (s.applyPending t).takesAtOnce = s.takesAtOnce := by
    rw [State.takesAtOnce, State.takesAtOnce, State.canTake, State.canTake, hbuffered, State.applyPending_phase,
      State.applyPending_resetPart, State.applyPending_link]
  refine ⟨htakes.trans takes, by rwa [State.applyPending_isOpen], ?_⟩
  · simpa [State.cached, State.inFlight] using fresh

theorem State.restartSilence_applyPending (s : State) (t : TrackId) :
    (s.applyPending t).restartSilence = s.restartSilence.applyPending t := by
  unfold State.restartSilence
  rw [State.applyPending_isOpen]
  split
  · rw [State.applyPending_session]
    exact (State.applyPending_withSession s _ t).symm
  · rfl

/-- A track whose state is none of IDLE and DISABLED (R71). -/
theorem TrackState.active_of_context {st : TrackState} (h : st.context ≠ none) : st ≠ .idle ∧ st ≠ .disabled := by
  constructor <;> rintro rfl <;> exact h rfl

/-- Settles O30: an abort is the track's own end, the answers to its deferred requests and the event, in this order; the
other stops are a settled track and one event. -/
theorem stopsTakeTheTrackToIdle : Obligations.StopsTakeTheTrackToIdle := by
  unfold Obligations.StopsTakeTheTrackToIdle
  refine ⟨fun s f track mode hopen hfresh hk hp hm => ?_, fun s tag t hopen hx => ?_⟩
  · have howner : frameOwner f s = (s, .reply .badValue (zeros 8) 0) := by
      rw [frameOwner_stop_badMode hk hp hm]
      rfl
    rw [State.dispatch_executed _ (by rw [hk]; rfl) (by rw [hk, hp]; rfl) (.inl hopen) hfresh, State.execute_reply howner, hk]
    rfl
  have hopen' : s.restartSilence.isOpen = true := (State.isOpen_restartSilence s).trans hopen
  have happlied (s' : State) (q : PendingConfig) (hctx : s.tracks[t].state.context ≠ none) (h : s.Applied s' t q) :
      exec (.stopTrackAbort tag (BitVec.ofNat 8 t.val)) s = exec (.stopTrackAbort tag (BitVec.ofNat 8 t.val)) s' := by
    have hactive : s.restartSilence.tracks[t].state ≠ .idle ∧ s.restartSilence.tracks[t].state ≠ .disabled := by
      rw [State.restartSilence_tracks]
      exact TrackState.active_of_context hctx
    have hactive' : (s.restartSilence.applyPending t).tracks[t].state ≠ .idle ∧
        (s.restartSilence.applyPending t).tracks[t].state ≠ .disabled := by rwa [State.applyPending_state]
    rw [h.eq, isRequest_stopAbort.reply hx rfl (answerStopAbort_active hactive),
      isRequest_stopAbort.reply (hx.applyPending t) (s.restartSilence_applyPending t) (answerStopAbort_active hactive'),
      State.stopAbort_applyPending]
  obtain ⟨session, hb⟩ := s.restartSilence_eq
  rw [hb] at hopen'
  have abort := answerStopAbort_active (u := { s with session := session }) (t := t)
  have aborted := State.stopAbort_open (s := { s with session := session }) (t := t) hopen'
  have still := answerStop_still (u := { s with session := session }) (t := t)
  have atOnce := answerStopEnd_atOnce (u := { s with session := session }) (t := t)
  have armed {a} := answerStopEnd_armed (u := { s with session := session }) (t := t) (a := a)
  have rests := State.restLines_get { s with session := session } s.tracks[t].group
  simp only [hb]
  refine ⟨fun c hc hnone => ?_, happlied, fun hstill i hi => ?_,
    fun hnone => ⟨fun hst => ?_, fun hst => ?_, fun ⟨a, ha⟩ => ?_⟩⟩
  · have hactive := TrackState.active_of_context (st := s.tracks[t].state) (by rw [hc]; nofun)
    obtain ⟨hu, hanswered⟩ := aborted
    rw [State.abortTrack_of_context hopen' hnone hc] at hu
    refine ⟨_, isRequest_stopAbort.reply hx hb (abort hactive), ?_, hanswered, ?_, fun l => ?_⟩
    · rw [hu]
      rfl
    · rw [hu]
    · rw [hu]
      exact rests l
  · simp only [List.mem_cons, List.not_mem_nil, or_false] at hi
    obtain rfl | rfl := hi
    · exact isRequest_stopAbort.reply hx hb (still hstill).1
    · exact isRequest_stopEnd.reply hx hb (still hstill).2
  · have hother : (s.tracks[t].state ≠ .idle ∧ s.tracks[t].state ≠ .disabled) ∧ s.tracks[t].state.context = none := by
      obtain ⟨a, h⟩ | ⟨r, h⟩ | h := hst <;> rw [h] <;> exact ⟨⟨nofun, nofun⟩, rfl⟩
    obtain ⟨hactive, hcontext⟩ := hother
    obtain ⟨hu, hanswered⟩ := aborted
    rw [State.abortTrack_of_no_context (s := { s with session := session }) hnone hcontext] at hu
    refine ⟨_, isRequest_stopAbort.reply hx hb (abort hactive), ?_, fun l => ?_, hanswered⟩
    · rw [hu]
      rfl
    · rw [hu]
      simpa using rests l
  · have hu := State.stopAtOnce_open (t := t) hopen' hnone
    refine ⟨_, isRequest_stopEnd.reply hx hb (atOnce hst), ?_, fun l => ?_, ?_⟩
    · rw [hu]
      rfl
    · rw [hu]
      simpa using rests l
    · rw [hu]
  · obtain ⟨hu, hanswered⟩ := State.cancelStart_open (t := t) hopen' .stopped
    rw [State.settle_eq (s := { s with session := session }) hnone] at hu
    refine ⟨_, isRequest_stopEnd.reply hx hb (armed ha), ?_, fun l => ?_, hanswered⟩
    · rw [hu]
      rfl
    · rw [hu]
      simp

end Sys2Proof.Machine
end

section
/-! Reference pulses, the loss of lock and the release of epoch starts (R66, R68, R69, R112 to R114). -/
namespace Sys2Proof.Machine

/-! ### Epoch starts cancelled -/

/-- An event is kept while a session is open, and dropped otherwise (R150). -/
theorem State.queueEvent_eq (s : State) (e : Event) :
    s.queueEvent e = { s with events := if s.isOpen then s.events.store e else s.events } := by
  unfold State.queueEvent
  split <;> rfl

/-- Composing a reply reads the link unit alone. -/
theorem State.compose_link_congr {s s' : State} (h : s.link = s'.link) (owner : Owner) (status : Status)
    (fields : List Byte) : (s.compose owner status fields).link = (s'.compose owner status fields).link := by
  unfold State.compose
  rw [h]
  split
  · exact h
  · rfl

/-- Starts answered ABORTED one after another (R66). -/
def State.abortStarts (s : State) (ts : List TrackId) : State := ts.foldl (fun v t => v.composeAborted (.start t)) s

theorem State.abortStarts_link_congr (ts : List TrackId) {s s' : State} (h : s.link = s'.link) :
    (s.abortStarts ts).link = (s'.abortStarts ts).link := by
  induction ts generalizing s s' with
  | nil => exact h
  | cons t ts ih => exact ih (State.compose_link_congr h _ _ _)

/-- A track whose start is cancelled: IDLE, nothing held or asked for, its queue kept (R69). -/
def Track.cancelled (tr : Track) : Track :=
  { tr with state := .idle, hold := false, looping := false, stopRequest := false, pendingConfig := none }

theorem State.cancelStart_get (s : State) (t u : TrackId) (reason : CancelReason) :
    (s.cancelStart t reason).tracks[u] = if u = t then s.tracks[u].cancelled else s.tracks[u] := by
  rw [State.cancelStart_tracks, State.settle_get]
  rfl

/-- A cancelled start, with a session open or not (R66, R69, R150). -/
theorem State.cancelStart_eq (s : State) (t : TrackId) (reason : CancelReason) :
    s.cancelStart t reason = { s with
      tracks := (s.cancelStart t reason).tracks
      events := if s.isOpen then s.events.store (.startCancelled t reason) else s.events
      link := (s.composeAborted (.start t)).link } := by
  have hcompose := ((s.settle t .idle).composeAborted_answered (.start t)).2
  have hlink : ((s.settle t .idle).composeAborted (.start t)).link = (s.composeAborted (.start t)).link :=
    State.compose_link_congr (s.settle_link t .idle) _ _ _
  rw [State.cancelStart_tracks, State.cancelStart, hcompose, hlink, State.queueEvent_eq]
  rfl

/-- Starts cancelled one after another: each with its event and its reply (R66, R69, R150). -/
theorem State.cancelStarts_eq (ts : List TrackId) (s : State) (reason : CancelReason) :
    ts.foldl (fun s t => s.cancelStart t reason) s = { s with
      tracks := (ts.foldl (fun s t => s.cancelStart t reason) s).tracks
      events := if s.isOpen then ts.foldl (fun e t => e.store (.startCancelled t reason)) s.events else s.events
      link := (s.abortStarts ts).link } := by
  induction ts generalizing s with
  | nil => cases s.isOpen <;> rfl
  | cons t ts ih =>
    have hcancel := s.cancelStart_eq t reason
    have hopen : (s.cancelStart t reason).isOpen = s.isOpen := by rw [hcancel]; rfl
    have hlink : ((s.cancelStart t reason).abortStarts ts).link = (s.abortStarts (t :: ts)).link :=
      State.abortStarts_link_congr ts (by rw [hcancel])
    rw [List.foldl_cons, ih, hopen, hlink, hcancel]
    cases s.isOpen <;> rfl

theorem State.cancelStarts_get (ts : List TrackId) (s : State) (reason : CancelReason) (u : TrackId) :
    (ts.foldl (fun s t => s.cancelStart t reason) s).tracks[u] =
      if u ∈ ts then s.tracks[u].cancelled else s.tracks[u] := by
  induction ts generalizing s with
  | nil => rfl
  | cons t ts ih =>
    rw [List.foldl_cons, ih, State.cancelStart_get]
    by_cases hu : u = t
    · simp [hu, Track.cancelled]
    · simp [hu]

/-! ### The loss of lock -/

/-- The tracks ARMED in form ON_EPOCH, T0 first (R114). -/
def State.epochStarts (s : State) : List TrackId := allTracks.filter fun t => s.tracks[t].onEpoch

/-- A loss of lock with a reference record: SEEKING, Reference Status, and every epoch start cancelled (R114, R150). -/
theorem State.lossOfLock_eq (s : State) (r : Reference) :
    State.lossOfLock { s with reference := r } = { s with
      reference := { r with status := .seeking }
      tracks := (State.lossOfLock { s with reference := r }).tracks
      events := if s.isOpen
        then s.epochStarts.foldl (fun e t => e.store (.startCancelled t .reference))
          (s.events.store (.referenceStatus .seeking r.epoch s.timeline))
        else s.events
      link := (s.abortStarts s.epochStarts).link } := by
  have hqueued : State.queueEvent { s with reference := { r with status := .seeking } }
      (.referenceStatus .seeking r.epoch s.timeline) = { s with
        reference := { r with status := .seeking }
        events := if s.isOpen then s.events.store (.referenceStatus .seeking r.epoch s.timeline) else s.events } :=
    State.queueEvent_eq _ _
  have hopen (e : EventUnit) : State.isOpen { s with reference := { r with status := .seeking }, events := e } = s.isOpen := rfl
  have hlink (e : EventUnit) : (State.abortStarts { s with reference := { r with status := .seeking }, events := e }
      s.epochStarts).link = (s.abortStarts s.epochStarts).link := State.abortStarts_link_congr _ rfl
  unfold State.lossOfLock
  dsimp only
  rw [hqueued]
  refine (State.cancelStarts_eq s.epochStarts _ .reference).trans ?_
  rw [hlink, hopen]
  cases s.isOpen <;> rfl

theorem State.lossOfLock_get (s : State) (r : Reference) (t : TrackId) :
    (State.lossOfLock { s with reference := r }).tracks[t] =
      if s.tracks[t].onEpoch then s.tracks[t].cancelled else s.tracks[t] := by
  have hmem : t ∈ s.epochStarts ↔ s.tracks[t].onEpoch = true := by
    simp [State.epochStarts, allTracks]
  refine (State.cancelStarts_get s.epochStarts _ .reference t).trans ?_
  rw [State.queueEvent_tracks]
  simp only [hmem]

/-! ### The release of epoch starts -/

/-- A pulse is its own acceptance: an offset below the trigger latency makes the start late (R68). -/
theorem releasedStart_pulse (p : Stamp) (offset : Word32) :
    releasedStart p p offset =
      if 4 ≤ offset.toNat then .timed (p + offset.setWidth 48) false else .timed (p + 4) true := by
  have hlatency : atOrAfter (p + ticks offset) (p + tickCount Config.triggerLatency) = true ↔ 4 ≤ offset.toNat := by
    have hdiff : p + ticks offset - (p + tickCount Config.triggerLatency) = ticks offset - 4#48 := add_sub_add_left_eq_sub _ _ _
    have := offset.isLt
    rw [atOrAfter, decide_eq_true_iff, hdiff, BitVec.toInt_eq_toNat_cond, BitVec.toNat_sub, ticks, BitVec.toNat_setWidth]
    simp only [BitVec.toNat_ofNat]
    omega
  unfold releasedStart
  simp only [hlatency]
  rfl

/-- What a pulse makes of a track's state, the start's form written out (R68). -/
theorem TrackState.onPulse_eq (st : TrackState) (epoch : Word32) (p : Stamp) :
    st.onPulse epoch p =
      match st with
      | .armed ⟨.onEpoch n offset, reply⟩ =>
        if n = epoch then
          .armed ⟨if 4 ≤ offset.toNat then .timed (p + offset.setWidth 48) false else .timed (p + 4) true, reply⟩
        else st
      | other => other := by
  unfold TrackState.onPulse
  simp only [releasedStart_pulse] <;> rfl

theorem TrackState.onPulse_of_not_onEpoch {tr : Track} (h : tr.onEpoch = false) (epoch : Word32) (p : Stamp) :
    tr.state.onPulse epoch p = tr.state := by
  unfold TrackState.onPulse
  split
  · rename_i hst
    rw [Track.onEpoch, hst] at h
    cases h
  · rfl

/-- With no start waiting for an epoch none is released. -/
theorem State.releaseEpoch_of_none {s : State} (h : ∀ t : TrackId, s.tracks[t].onEpoch = false) : s.releaseEpoch = s := by
  have htracks : s.tracks.map (fun tr => { tr with state := tr.state.onPulse s.reference.epoch s.timeline }) = s.tracks := by
    refine Vector.ext fun i hi => ?_
    have hstate (epoch : Word32) (p : Stamp) : s.tracks[i].state.onPulse epoch p = s.tracks[i].state :=
      TrackState.onPulse_of_not_onEpoch (h ⟨i, hi⟩) epoch p
    rw [Vector.getElem_map, hstate]
  rw [State.releaseEpoch, htracks]

/-- A loss of lock leaves no start waiting for an epoch (R114). -/
theorem State.lossOfLock_releaseEpoch (s : State) (r : Reference) :
    (State.lossOfLock { s with reference := r }).releaseEpoch = State.lossOfLock { s with reference := r } := by
  refine State.releaseEpoch_of_none fun t => ?_
  rw [State.lossOfLock_get]
  cases h : s.tracks[t].onEpoch with
  | true => rfl
  | false => exact h

/-! ### A pulse -/

/-- The reference record with a pulse counted (R112). -/
def Reference.counted (r : Reference) (now : Stamp) : Reference := { r with epoch := r.epoch + 1, lastPulse := some now }

theorem Reference.inWindow_iff (r : Reference) (d : Stamp) :
    r.inWindow d = true ↔ r.interval.toNat - r.window.toNat ≤ d.toNat ∧ d.toNat ≤ r.interval.toNat + r.window.toNat :=
  decide_eq_true_iff

section
variable (s : State)

theorem State.pulse_free (h : s.reference.status = .free) :
    s.pulse = State.releaseEpoch { s with reference := s.reference.counted s.timeline } :=
  congrArg State.releaseEpoch (if_pos h)

theorem State.pulse_checked (h : s.reference.status ≠ .free) :
    s.pulse = (State.checkPulse { s with reference := s.reference.counted s.timeline }).releaseEpoch :=
  congrArg State.releaseEpoch (if_neg h)

theorem State.checkPulse_unmeasured (h : s.reference.base = none) :
    s.checkPulse = { s with reference := { s.reference with base := some s.timeline } } := by
  unfold State.checkPulse
  dsimp only
  rw [h]

/-- A pulse is measured against the base before it (R113). -/
theorem State.checkPulse_measured {b : Stamp} (h : s.reference.base = some b) :
    s.checkPulse =
      let r := s.reference
      let measured : Reference := { r with base := some s.timeline, measured := some (s.timeline - b) }
      if r.inWindow (s.timeline - b) then
        if r.status = .seeking ∧ min (r.good + 1) 255 = 2 then
          State.queueEvent { s with reference := { measured with good := min (r.good + 1) 255, status := .locked } }
            (.referenceStatus .locked r.epoch s.timeline)
        else { s with reference := { measured with good := min (r.good + 1) 255 } }
      else if r.status = .locked then State.lossOfLock { s with reference := { measured with good := 0 } }
      else { s with reference := { measured with good := 0 } } := by
  unfold State.checkPulse
  dsimp only
  rw [h]

end

/-- Settles O47: a pulse is checked, then the starts of its epoch are released; a loss of lock leaves none to release. -/
theorem referencePulsesAreChecked : Obligations.ReferencePulsesAreChecked := by
  unfold Obligations.ReferencePulsesAreChecked
  intro lost
  have hlost (s : State) (r : Reference) :
      lost s (State.lossOfLock { s with reference := r }) { r with status := .seeking } s.timeline := by
    refine ⟨s.lossOfLock_eq r, fun t ht => ?_, fun t ht => ?_⟩
    · exact (s.lossOfLock_get r t).trans (if_pos ht)
    · exact (s.lossOfLock_get r t).trans (if_neg (Bool.eq_false_iff.mp ht))
  refine ⟨fun s hphase => ?_, fun s hphase => congrArg Host.Outcome.next (if_pos hphase), fun s d hdue => ?_⟩
  · intro r now counted released after
    have hexec : exec .referencePulse s = .next s.pulse := congrArg Host.Outcome.next (if_neg hphase)
    have hrun (hchecked : r.status ≠ .free) :
        exec .referencePulse s = .next (State.checkPulse { s with reference := counted }).releaseEpoch :=
      hexec.trans (congrArg Host.Outcome.next (s.pulse_checked hchecked))
    have hreleased (st : TrackState) : st.onPulse (r.epoch + 1) now = released st := TrackState.onPulse_eq st _ now
    have hafter (r' : Reference) (e : EventUnit) (hepoch : r'.epoch = r.epoch + 1) :
        State.releaseEpoch { s with reference := r', events := e } = after r' e := by
      unfold State.releaseEpoch
      simp only [hepoch, show s.timeline = now from rfl, hreleased]
      rfl
    refine ⟨fun hfree => ?_, fun hchecked hbase => ?_, fun base hchecked hbase => ?_⟩
    · rw [hexec, s.pulse_free hfree]
      exact congrArg Host.Outcome.next (hafter counted s.events rfl)
    · rw [hrun hchecked, State.checkPulse_unmeasured { s with reference := counted } hbase]
      exact congrArg Host.Outcome.next (hafter { counted with base := some now } s.events rfl)
    · intro d measured inside good
      have hcheck := State.checkPulse_measured { s with reference := counted } hbase
      refine ⟨fun hin hlock => ?_, fun hin hseek hgood => ?_, fun hout hseek => ?_, fun hout hlock => ?_⟩
      · have hcheckPulse : State.checkPulse { s with reference := counted } =
            { s with reference := { measured with good := good } } :=
          hcheck.trans ((if_pos ((Reference.inWindow_iff _ _).mpr hin)).trans (if_neg hlock))
        rw [hrun hchecked, hcheckPulse]
        exact congrArg Host.Outcome.next (hafter { measured with good := good } s.events rfl)
      · have hcheckPulse : State.checkPulse { s with reference := counted } =
            State.queueEvent { s with reference := { measured with good := good, status := .locked } }
              (.referenceStatus .locked (r.epoch + 1) now) :=
          hcheck.trans ((if_pos ((Reference.inWindow_iff _ _).mpr hin)).trans (if_pos ⟨hseek, hgood⟩))
        rw [hrun hchecked, hcheckPulse, State.queueEvent_eq]
        exact congrArg Host.Outcome.next (hafter { measured with good := good, status := .locked } _ rfl)
      · have hcheckPulse : State.checkPulse { s with reference := counted } =
            { s with reference := { measured with good := 0 } } :=
          hcheck.trans ((if_neg (mt (Reference.inWindow_iff _ _).mp hout)).trans (if_neg (by rw [hseek]; nofun)))
        rw [hrun hchecked, hcheckPulse]
        exact congrArg Host.Outcome.next (hafter { measured with good := 0 } s.events rfl)
      · have hcheckPulse : State.checkPulse { s with reference := counted } =
            State.lossOfLock { s with reference := { measured with good := 0 } } :=
          hcheck.trans ((if_neg (mt (Reference.inWindow_iff _ _).mp hout)).trans (if_pos hlock))
        refine ⟨_, hrun hchecked, ?_⟩
        rw [hcheckPulse, State.lossOfLock_releaseEpoch]
        exact hlost s { measured with good := 0 }
  · have hexec : exec .missingPulseExpiry s = .next (s.afterPeriods d).missPulse :=
      congrArg Host.Outcome.next (State.atDue_of_dueAfter hdue _)
    intro w
    refine ⟨fun hfree => ?_, fun hlock => ⟨_, hexec, ?_⟩⟩
    · rw [hexec, State.missPulse, if_neg (by rwa [State.afterPeriods_reference]), State.afterPeriods_reference]
    · rw [State.missPulse, if_pos (by rwa [State.afterPeriods_reference]), State.afterPeriods_reference]
      exact hlost w { s.reference with good := 0, base := none }

end Sys2Proof.Machine
end

section
/-! Triggers: the active level, an accepted edge, a firing with its consumers, and its consumption (R84, R86, R89 to R93). -/
namespace Sys2Proof.Machine

/-! ### The active level, and what a trigger watches for after a firing -/

/-- A line stands at the active level of a level sense; an edge sense has none (R86). -/
theorem Sense.activeLevel_eq_some_iff (sense : Sense) (level : Bool) :
    sense.activeLevel = some level ↔ (sense = .levelHigh ∧ level = true) ∨ (sense = .levelLow ∧ level = false) := by
  cases sense <;> simp [Sense.activeLevel, eq_comm]

theorem State.latchAfterFiring_eq (s : State) (c : TriggerConfig) :
    s.latchAfterFiring c = if c.sense.activeLevel = some s.lines[c.line].sensedLevel then .blocked else .armed := by
  unfold State.latchAfterFiring
  cases c.sense.activeLevel with
  | none => rfl
  | some level => simp only [Option.some.injEq, eq_comm]

/-- A configured trigger's latch is set with its configuration kept. -/
theorem State.setLatch_eq {s : State} {k : TriggerId} {g : TriggerConfig} (h : s.triggers[k].config = some g) (latch : Latch) :
    s.setLatch k latch = { s with triggers := s.triggers.set k ⟨latch, some g⟩ } := by
  unfold State.setLatch State.modifyTrigger
  dsimp only
  rw [h]

/-- A configuration after one firing: a LIMITED count has fallen by 1 (R92). -/
def TriggerConfig.counted (c : TriggerConfig) : TriggerConfig :=
  if c.limited then { c with remaining := c.remaining - 1 } else c

/-- What consumption does to a configured trigger: its count falls, and at 0 it is disarmed (R92). -/
theorem State.consume_eq {s : State} {k : TriggerId} {c : TriggerConfig} (h : s.triggers[k].config = some c) :
    let latch := if c.limited = true ∧ c.remaining - 1 = 0 then .disarmed else s.latchAfterFiring c
    s.consume k = { s with triggers := s.triggers.set k ⟨latch, some c.counted⟩ } := by
  unfold State.consume TriggerConfig.counted
  rw [h]
  cases hlimited : c.limited with
  | true => simp [hlimited, State.modifyTrigger]
  | false => simpa [hlimited] using State.setLatch_eq h _

/-- The last firing of a LIMITED count disarms the trigger (R92). -/
theorem State.consume_last {s : State} {k : TriggerId} {c : TriggerConfig} (h : s.triggers[k].config = some c)
    (hlimited : c.limited = true) (hlast : c.remaining = 1) :
    s.consume k = { s with triggers := s.triggers.set k ⟨.disarmed, some c.counted⟩ } := by
  rw [State.consume_eq h, if_pos ⟨hlimited, by rw [hlast]⟩]

/-- While firings remain the trigger watches on (R92). -/
theorem State.consume_more {s : State} {k : TriggerId} {c : TriggerConfig} (h : s.triggers[k].config = some c)
    (hmore : c.limited = true → 1 < c.remaining) :
    s.consume k = { s with triggers := s.triggers.set k ⟨s.latchAfterFiring c, some c.counted⟩ } := by
  have hleft : ¬(c.limited = true ∧ c.remaining - 1 = 0) := fun ⟨hlimited, hzero⟩ => by
    have := hmore hlimited
    omega
  rw [State.consume_eq h, if_neg hleft]

/-- Settles O41: the count first, then the level of the line. -/
theorem consumptionEndsTheFiring : Obligations.ConsumptionEndsTheFiring := by
  unfold Obligations.ConsumptionEndsTheFiring
  intro s k c hc
  refine ⟨fun hlimited hlast => State.consume_last hc hlimited hlast, fun hmore => ?_⟩
  rw [State.consume_more hc hmore, State.latchAfterFiring_eq, ← Sense.activeLevel_eq_some_iff]
  exact ⟨fun hstands => by rw [if_pos hstands]; rfl, fun hnot => by rw [if_neg hnot]; rfl⟩

/-! ### An accepted edge -/

section
variable {s : State} {k : TriggerId} {rising : Bool} {f c : Stamp}

theorem State.edgeAtTrigger_unconfigured (h : s.triggers[k].config = none) : s.edgeAtTrigger rising f c k = s := by
  unfold State.edgeAtTrigger; rw [h]

variable {g : TriggerConfig} (h : s.triggers[k].config = some g)
include h

theorem State.edgeAtTrigger_disarmed (hl : s.triggers[k].latch = .disarmed) : s.edgeAtTrigger rising f c k = s := by
  unfold State.edgeAtTrigger
  rw [h]
  dsimp only
  rw [hl]

theorem State.edgeAtTrigger_armed (hl : s.triggers[k].latch = .armed) :
    s.edgeAtTrigger rising f c k = if g.sense.matchesEdge rising then s.fire k g f c else s := by
  unfold State.edgeAtTrigger
  rw [h]
  dsimp only
  rw [hl]

/-- A BLOCKED trigger is armed by an edge away from its active level (R89; log entry 24). -/
theorem State.edgeAtTrigger_blocked (hl : s.triggers[k].latch = .blocked) :
    s.edgeAtTrigger rising f c k =
      if g.sense.matchesEdge rising then s else { s with triggers := s.triggers.set k ⟨.armed, some g⟩ } := by
  unfold State.edgeAtTrigger
  rw [h]
  dsimp only
  rw [hl, State.setLatch_eq h]

/-- A held firing notes the first further edge of its sense (R93). -/
theorem State.edgeAtTrigger_fired {f0 c0 : Stamp} {overrun : Bool} (hl : s.triggers[k].latch = .fired f0 c0 overrun) :
    s.edgeAtTrigger rising f c k =
      if g.sense.matchesEdge rising && !overrun then
        ({ s with triggers := s.triggers.set k ⟨.fired f0 c0 true, some g⟩ }).queueEvent (.triggerOverrun k f)
      else s := by
  rw [← State.setLatch_eq h]
  unfold State.edgeAtTrigger
  rw [h]
  dsimp only
  rw [hl]

end

/-! ### The consumers of a trigger -/

/-- A track waits for its start on a trigger when it is ARMED on it (R84). -/
theorem Track.waitsOn_start_iff (tr : Track) (k : TriggerId) :
    tr.waitsOn k = some .start ↔ ∃ (offset : Word32) (reply : Bool), tr.state = .armed ⟨.onTrigger k offset, reply⟩ := by
  unfold Track.waitsOn
  split
  · rename_i hst
    simp [hst]
  · rename_i hst
    simp [hst]
  · rename_i harmed _
    exact ⟨nofun, fun ⟨offset, reply, hst⟩ => absurd hst (harmed k offset reply)⟩

/-- A track waits at a gate on a trigger when it is STALLED there and not yet released (R84, R100). -/
theorem Track.waitsOn_gate_iff (tr : Track) (k : TriggerId) :
    tr.waitsOn k = some .gate ↔
      ∃ (p : Playback) (w : GateWait), tr.state = .stalled p w ∧ w.trigger = k ∧ w.resume = none := by
  unfold Track.waitsOn
  split
  · rename_i hst
    simp [hst]
  · rename_i p g hst
    simp [hst]
  · rename_i _ hstalled
    exact ⟨nofun, fun ⟨p, w, hst, _⟩ => absurd hst (hstalled p w)⟩

theorem State.mem_consumers (s : State) (k : TriggerId) (t : TrackId) :
    t ∈ s.consumers k ↔ (s.tracks[t].waitsOn k).isSome = true := by
  simp [State.consumers, allTracks]

theorem State.mem_consumers_iff (s : State) (k : TriggerId) (t : TrackId) :
    t ∈ s.consumers k ↔ s.tracks[t].waitsOn k = some .start ∨ s.tracks[t].waitsOn k = some .gate := by
  rw [State.mem_consumers]
  cases s.tracks[t].waitsOn k with
  | none => simp
  | some mark => cases mark <;> simp

/-! ### The release of the consumers -/

/-- A released start is due at the firing's stamp plus its offset if that leaves the trigger latency, and is late otherwise
(R91). -/
theorem releasedStart_eq (f c : Stamp) (offset : Word32) :
    releasedStart f c offset =
      if 0 ≤ (f + offset.setWidth 48 - (c + 4)).toInt then .timed (f + offset.setWidth 48) false
      else .timed (c + 4) true := by
  have htest : atOrAfter (f + ticks offset) (c + tickCount Config.triggerLatency) = true ↔
      0 ≤ (f + offset.setWidth 48 - (c + 4)).toInt := decide_eq_true_iff
  unfold releasedStart
  simp only [htest]
  rfl

theorem releasedStart_timed (f c : Stamp) (offset : Word32) : ∃ start late, releasedStart f c offset = .timed start late := by
  rw [releasedStart_eq]
  split
  · exact ⟨_, _, rfl⟩
  · exact ⟨_, _, rfl⟩

/-- A released track does not wait any more, so that a further release leaves it (R91). -/
theorem TrackState.released_released (st : TrackState) (f c : Stamp) : (st.released f c).released f c = st.released f c := by
  cases st with
  | armed a =>
    obtain ⟨form, reply⟩ := a
    cases form with
    | onTrigger k offset =>
      obtain ⟨start, late, htimed⟩ := releasedStart_timed f c offset
      simp only [TrackState.released, htimed]
    | timed start late => rfl
    | onEpoch epoch offset => rfl
  | disabled | idle | playing _ | stalled _ _ | holding _ | faulted => rfl

/-- Tracks released one after another: their states change, and nothing else (R91). -/
theorem State.releaseTracks_eq (ts : List TrackId) (s : State) (f c : Stamp) :
    ts.foldl (fun s t => s.releaseTrack f c t) s =
      { s with tracks := (ts.foldl (fun s t => s.releaseTrack f c t) s).tracks } := by
  induction ts generalizing s with
  | nil => rfl
  | cons t ts ih =>
    rw [List.foldl_cons, ih]
    rfl

theorem State.releaseTracks_get (ts : List TrackId) (s : State) (f c : Stamp) (u : TrackId) :
    (ts.foldl (fun s t => s.releaseTrack f c t) s).tracks[u] =
      if u ∈ ts then { s.tracks[u] with state := s.tracks[u].state.released f c } else s.tracks[u] := by
  induction ts generalizing s with
  | nil => rfl
  | cons t ts ih =>
    have hget : (s.releaseTrack f c t).tracks[u] =
        if u = t then { s.tracks[u] with state := s.tracks[u].state.released f c } else s.tracks[u] := by
      rw [State.releaseTrack, State.setTrackState, State.modifyTrack_get]
      split
      · rename_i hu
        rw [hu]
      · rfl
    rw [List.foldl_cons, ih, hget]
    by_cases hu : u = t
    · simp [hu, TrackState.released_released]
    · simp [hu]

/-! ### A firing -/

/-- An event that is queued if it is wanted is stored while a session is open (R150). -/
theorem State.queueEventIf_eq (s : State) (wanted : Bool) (e : Event) :
    s.queueEventIf wanted e = { s with events := if wanted ∧ s.isOpen then s.events.store e else s.events } := by
  cases wanted with
  | true => simp [State.queueEventIf, State.queueEvent_eq]
  | false => simp [State.queueEventIf]

section
variable {s : State} {k : TriggerId}

/-- A firing that no track waits for is held (R90). -/
theorem State.fire_held (h : s.consumers k = []) (g : TriggerConfig) (f c : Stamp) :
    s.fire k g f c = (s.setLatch k (.fired f c false)).queueEventIf g.report (.triggerFired k g.line f 0) := by
  unfold State.fire
  rw [h]
  rfl

/-- The part as a firing's consumers find it: the latch holds the firing, and its event is queued (R90). -/
def State.firing (s : State) (k : TriggerId) (g : TriggerConfig) (f c : Stamp) : State :=
  { s with
    triggers := s.triggers.set k { s.triggers[k] with latch := .fired f c false }
    events := if g.report ∧ s.isOpen then s.events.store (.triggerFired k g.line f (s.consumers k).length) else s.events }

theorem State.firing_config (s : State) (k : TriggerId) (g : TriggerConfig) (f c : Stamp) :
    (s.firing k g f c).triggers[k].config = s.triggers[k].config := by
  simp [State.firing]

/-- A firing releases every track that waits for it and is consumed (R90 to R92). -/
theorem State.fire_released (h : s.consumers k ≠ []) (g : TriggerConfig) (f c : Stamp) :
    s.fire k g f c = ((s.consumers k).foldl (fun s t => s.releaseTrack f c t) (s.firing k g f c)).consume k := by
  have hfiring : (s.setLatch k (.fired f c false)).queueEventIf g.report (.triggerFired k g.line f (s.consumers k).length) =
      s.firing k g f c := State.queueEventIf_eq _ _ _
  unfold State.fire
  dsimp only
  rw [if_neg (by simpa using h), hfiring]

theorem State.fire_get (h : s.consumers k ≠ []) (g : TriggerConfig) (f c : Stamp) (t : TrackId) :
    (s.fire k g f c).tracks[t] =
      if t ∈ s.consumers k then { s.tracks[t] with state := s.tracks[t].state.released f c } else s.tracks[t] := by
  rw [State.fire_released h, State.consume_tracks, State.releaseTracks_get]
  rfl

/-- A consumed firing changes tracks, triggers and the event unit alone. -/
theorem State.fire_frame (h : s.consumers k ≠ []) (g : TriggerConfig) (f c : Stamp) :
    s.fire k g f c = { s with
      tracks := (s.fire k g f c).tracks, triggers := (s.fire k g f c).triggers
      events := if g.report ∧ s.isOpen then s.events.store (.triggerFired k g.line f (s.consumers k).length)
        else s.events } := by
  have hconsume (u : State) : u.consume k = { u with triggers := (u.consume k).triggers } := u.consume_withSession u.session k
  rw [State.fire_released h, hconsume, State.releaseTracks_eq]
  rfl

/-- The trigger of a consumed firing is left as the consumption of its firing leaves it (R92). -/
theorem State.fire_triggers (h : s.consumers k ≠ []) {g : TriggerConfig} (hg : s.triggers[k].config = some g) (f c : Stamp) :
    (s.fire k g f c).triggers = (s.consume k).triggers := by
  have hreleased : ((s.consumers k).foldl (fun s t => s.releaseTrack f c t) (s.firing k g f c)).triggers[k].config = some g := by
    rw [State.releaseTracks_eq]
    exact (s.firing_config k g f c).trans hg
  rw [State.fire_released h, State.consume_eq hg, State.consume_eq hreleased, State.releaseTracks_eq]
  simp only [State.latchAfterFiring_eq, State.firing, Vector.set_set]

end

/-- Settles O40: the edge by the latch, then the firing with its consumers, each released as its state says. -/
theorem edgesFireAndReleaseEveryConsumer : Obligations.EdgesFireAndReleaseEveryConsumer := by
  unfold Obligations.EdgesFireAndReleaseEveryConsumer
  refine ⟨fun s k rising f c => ⟨State.edgeAtTrigger_unconfigured, fun g hg => ?_⟩,
    ⟨fun _ => rfl, fun _ => rfl, fun _ => rfl, fun _ => rfl, fun _ => rfl⟩, ⟨rfl, rfl, rfl, rfl, rfl⟩,
    fun s k g f c => ⟨fun hnone => State.fire_held hnone g f c, fun hsome => ?_, fun t => ?_⟩⟩
  · refine ⟨State.edgeAtTrigger_disarmed hg, fun hl => ?_, fun hl => ?_, fun f0 c0 overrun hl => ?_⟩
    · rw [State.edgeAtTrigger_armed hg hl]
      exact ⟨fun hm => if_pos hm, fun hm => if_neg hm⟩
    · rw [State.edgeAtTrigger_blocked hg hl]
      exact ⟨fun hm => if_pos hm, fun hm => if_neg hm⟩
    · rw [State.edgeAtTrigger_fired hg hl]
      refine ⟨fun hignored => if_neg ?_, fun hm ho => if_pos (by rw [hm, ho]; rfl)⟩
      rcases hignored with hm | ho
      · simp [hm]
      · simp [ho]
  · have hget (t : TrackId) := State.fire_get hsome g f c t
    refine ⟨fun t ht => (hget t).trans (if_neg ht), fun t offset reply hst => ?_, fun t p w hst hk hr => ?_,
      State.fire_frame hsome g f c, fun hg => ?_⟩
    · rw [hget, if_pos ((s.mem_consumers_iff k t).mpr (.inl ((Track.waitsOn_start_iff _ _).mpr ⟨offset, reply, hst⟩))), hst,
        ← releasedStart_eq]
      rfl
    · rw [hget, if_pos ((s.mem_consumers_iff k t).mpr (.inr ((Track.waitsOn_gate_iff _ _).mpr ⟨p, w, hst, hk, hr⟩))), hst]
      rfl
    · obtain ⟨hlast, hmore⟩ := consumptionEndsTheFiring s k g hg
      rw [State.fire_triggers hsome hg]
      refine ⟨fun hlimited h1 => ?_, fun hleft => ⟨fun hstands => ?_, fun hnot => ?_⟩⟩
      · rw [hlast hlimited h1]
      · rw [(hmore hleft).1 hstands]
      · rw [(hmore hleft).2 hnot]
  · rw [State.mem_consumers_iff, Track.waitsOn_start_iff, Track.waitsOn_gate_iff]

end Sys2Proof.Machine
end

section
/-! Read Time, Read Reference, Read Lines and Read Trigger (R95, R109, R116, R128, R188). -/
namespace Sys2Proof.Machine

/-! ### Flags and masks as sums of bits -/

theorem flagByte_four (a b c d : Bool) :
    flagByte [a, b, c, d] =
      u8 ((if a then 2 ^ 0 else 0) + (if b then 2 ^ 1 else 0) + (if c then 2 ^ 2 else 0) + if d then 2 ^ 3 else 0) := by
  simp [flagByte, Nat.add_assoc]

theorem pow_mul_toNat (x : Bool) (n : Nat) : 2 ^ n * x.toNat = if x then 2 ^ n else 0 := by
  cases x <;> simp

/-- A sum over the elements that a test keeps. -/
theorem sum_map_filter {α : Type} (p : α → Bool) (f : α → Nat) (l : List α) :
    ((l.filter p).map f).sum = (l.map fun x => if p x then f x else 0).sum := by
  rw [List.sum_map_ite]
  simp

theorem trackMask_filter (p : TrackId → Bool) :
    trackMask (allTracks.filter p) = u8 ((allTracks.map fun t => if p t then 2 ^ t.val else 0).sum) := by
  rw [trackMask, sum_map_filter]

/-- The missing-pulse expiry is present exactly while the base is (R113). -/
theorem Reference.expiry_isSome (r : Reference) : r.expiry.isSome = r.base.isSome := Option.isSome_map

/-! ### Lines -/

/-- A trigger holds a line while it is bound to it and not DISARMED (R126). -/
theorem State.holdsLine_eq (s : State) (l : LineId) (k : TriggerId) :
    s.holdsLine l k =
      (decide (s.triggers[k].latch ≠ .disarmed) && (s.triggers[k].config.map TriggerConfig.line == some l)) := by
  unfold State.holdsLine
  cases hc : s.triggers[k].config with
  | none => simp
  | some c => cases hl : s.triggers[k].latch <;> simp [Bool.beq_eq_decide_eq]

/-- The owner byte of a line's report: the track whose group holds it (R122, R128). -/
def State.ownerByte (s : State) (l : LineId) : List Byte := u8 ((s.lineOwner l).elim 0 fun t => 128 + t.val)

/-- The trigger byte of a line's report: the triggers that hold it (R128). -/
def State.holdersByte (s : State) (l : LineId) : List Byte :=
  u8 ((allTriggers.map fun k =>
    if decide (s.triggers[k].latch ≠ .disarmed) && (s.triggers[k].config.map TriggerConfig.line == some l) then 2 ^ k.val
    else 0).sum)

/-- The filter byte of a line's report (R128). -/
def Line.filterByte (ln : Line) : List Byte :=
  match ln.role with
  | .input filter _ _ _ => [filter]
  | .unused | .output _ => u8 0

theorem State.lineReport_eq (s : State) (l : LineId) :
    s.lineReport l = s.lines[l].statusByte ++ s.ownerByte l ++ s.lines[l].filterByte ++ s.holdersByte l := by
  unfold State.lineReport State.ownerByte State.holdersByte
  simp only [State.holdsLine_eq]
  cases s.lineOwner l with
  | none => rfl
  | some t => rfl

section
variable {ln : Line}

theorem Line.statusByte_unused (h : ln.role = .unused) : ln.statusByte = u8 (if ln.rest then 2 ^ 4 else 0) := by
  rw [Line.statusByte, h, ← pow_mul_toNat]
  rfl

theorem Line.statusByte_output {driven : Bool} (h : ln.role = .output driven) :
    ln.statusByte = u8 (1 + (if ln.rest then 2 ^ 4 else 0) + if driven then 2 ^ 5 else 0) := by
  rw [Line.statusByte, h, ← pow_mul_toNat, ← pow_mul_toNat]
  rfl

theorem Line.statusByte_input {filter : Byte} {capture : CaptureEdges} {sensed : Bool} {candidate : Option Stamp}
    (h : ln.role = .input filter capture sensed candidate) :
    ln.statusByte = u8 (2 + 4 * capture.code + (if ln.rest then 2 ^ 4 else 0) + (if sensed then 2 ^ 5 else 0) +
      if candidate.isSome then 2 ^ 6 else 0) := by
  rw [Line.statusByte, h, ← pow_mul_toNat, ← pow_mul_toNat, ← pow_mul_toNat]
  rfl

end

/-! ### Triggers -/

/-- A track that waits on a trigger in a certain way is among its consumers (R84). -/
theorem Track.waitsOn_beq_and_isSome (tr : Track) (k : TriggerId) (m : Mark) :
    (tr.waitsOn k == some m && (tr.waitsOn k).isSome) = (tr.waitsOn k == some m) := by
  cases tr.waitsOn k with
  | none => rfl
  | some mark => exact Bool.and_true _

/-- The tracks that wait on a trigger, and those of them at a gate, as masks (R84, R95). -/
theorem State.consumers_masks (s : State) (k : TriggerId) :
    trackMask (s.consumers k) =
        u8 ((allTracks.map fun t => if (s.tracks[t].waitsOn k).isSome then 2 ^ t.val else 0).sum) ∧
      trackMask ((s.consumers k).filter fun t => s.tracks[t].waitsOn k == some .gate) =
        u8 ((allTracks.map fun t => if s.tracks[t].waitsOn k == some .gate then 2 ^ t.val else 0).sum) := by
  rw [State.consumers, List.filter_filter, trackMask_filter, trackMask_filter]
  simp only [Track.waitsOn_beq_and_isSome, and_self]

/-- The configuration's five bytes in Read Trigger: the flags, with the latch's overrun flag, the line, the sense, the count and
the line's sensed level (R95, R188). -/
def State.triggerBytes (s : State) (c : TriggerConfig) (overrun : Bool) : List Byte :=
  u8 (1 + (if !c.limited then 2 ^ 1 else 0) + (if c.report then 2 ^ 2 else 0) + if overrun then 2 ^ 3 else 0) ++
    u8 c.line.val ++ u8 c.sense.code ++ u8 c.remaining ++ u8 s.lines[c.line].sensedLevel.toNat

section
variable {u : State} {k : TriggerId} {c : TriggerConfig}

/-- Read Trigger gives the latch, the configuration, a held firing and the consumers (R95). -/
theorem answerReadTrigger_unheld (hc : u.triggers[k].config = some c)
    (hl : u.triggers[k].latch = .disarmed ∨ u.triggers[k].latch = .armed ∨ u.triggers[k].latch = .blocked) :
    answerReadTrigger (BitVec.ofNat 8 k.val) u = (u, .say .ok
      (u8 k.val ++ le48 u.timeline ++ u8 u.triggers[k].latch.code ++ u.triggerBytes c false ++ zeros 12 ++
        u8 (u.consumers k).length ++ trackMask (u.consumers k) ++
        trackMask ((u.consumers k).filter fun t => u.tracks[t].waitsOn k == some .gate))) := by
  rw [answerReadTrigger, idBelow_trigger]
  dsimp only
  rw [hc]
  dsimp only
  rw [flagByte_four]
  rcases hl with hl | hl | hl <;> rw [hl] <;> rfl

theorem answerReadTrigger_held (hc : u.triggers[k].config = some c) {f a : Stamp} {overrun : Bool}
    (hl : u.triggers[k].latch = .fired f a overrun) (hnone : u.consumers k = []) :
    answerReadTrigger (BitVec.ofNat 8 k.val) u = (u, .say .ok
      (u8 k.val ++ le48 u.timeline ++ u8 2 ++ u.triggerBytes c overrun ++ le48 f ++ le48 a ++ zeros 3)) := by
  rw [answerReadTrigger, idBelow_trigger]
  dsimp only
  rw [hc, hl, hnone]
  dsimp only
  rw [flagByte_four]
  simp only [List.append_assoc]
  rfl

theorem answerReadTrigger_unconfigured (hc : u.triggers[k].config = none) (hl : u.triggers[k].latch = .disarmed)
    (hnone : u.consumers k = []) :
    answerReadTrigger (BitVec.ofNat 8 k.val) u = (u, .say .ok (u8 k.val ++ le48 u.timeline ++ zeros 21)) := by
  rw [answerReadTrigger, idBelow_trigger]
  dsimp only
  rw [hc, hl, hnone]
  simp only [List.append_assoc]
  rfl

end

/-- Settles O45: each read answers on the part as it stands, with its record's bytes. -/
theorem unitReadsReportTheirRecords : Obligations.UnitReadsReportTheirRecords := by
  unfold Obligations.UnitReadsReportTheirRecords
  intro s tag _
  obtain ⟨session, hb⟩ := s.restartSilence_eq
  have readTime : IsRequest (.readTime tag) 0x10 tag := ⟨fun _ => rfl, _, rfl, rfl, rfl⟩
  have readReference : IsRequest (.readReference tag) 0x13 tag := ⟨fun _ => rfl, _, rfl, rfl, rfl⟩
  have readLines : IsRequest (.readLines tag) 0x19 tag := ⟨fun _ => rfl, _, rfl, rfl, rfl⟩
  have readTrigger (k : TriggerId) : IsRequest (.readTrigger tag (BitVec.ofNat 8 k.val)) 0x42 tag :=
    ⟨fun _ => rfl, _, rfl, rfl, rfl⟩
  simp only [hb]
  refine ⟨fun hx => readTime.reply hx hb rfl, fun hx => readReference.reply hx hb ?_, fun hx => readLines.reply hx hb ?_,
    fun k hx hc hl hnone => (readTrigger k).reply hx hb ?_, fun k c hx hc => ⟨fun hl => ?_, fun f a overrun hl hnone => ?_⟩⟩
  · simp only [ownerOf, answerReadReference, flagByte_four, Reference.expiry_isSome]
    rfl
  · have hline (l : LineId) := State.lineReport_eq { s with session := session } l
    refine congrArg (fun reports => (_, Answer.say .ok (le48 s.timeline ++ List.flatMap reports _)))
      (funext fun l => (hline l).trans ?_)
    cases hrole : s.lines[l].role with
    | unused =>
      rw [Line.statusByte_unused hrole, Line.filterByte, hrole]
      rfl
    | output driven =>
      rw [Line.statusByte_output hrole, Line.filterByte, hrole]
      rfl
    | input filter capture sensed candidate =>
      rw [Line.statusByte_input hrole, Line.filterByte, hrole]
      rfl
  · exact answerReadTrigger_unconfigured (u := { s with session := session }) hc hl hnone
  · have hmasks := State.consumers_masks { s with session := session } k
    refine (readTrigger k).reply hx hb ((answerReadTrigger_unheld (u := { s with session := session }) hc hl).trans ?_)
    rw [hmasks.1, hmasks.2]
    rfl
  · exact (readTrigger k).reply hx hb (answerReadTrigger_held (u := { s with session := session }) hc hl hnone)

end Sys2Proof.Machine
end

section
/-! Arm Trigger and Disarm Trigger (R66, R69, R84, R87, R88, R94, R101 to R104). -/
namespace Sys2Proof.Machine

/-! ### Arm Trigger -/

theorem Sense.ofByte_ge {sense : Byte} (h : 5 ≤ sense.toNat) : Sense.ofByte sense = none := by
  unfold Sense.ofByte
  split
  case h_6 => rfl
  all_goals omega

theorem Line.isInput_eq_false_iff (ln : Line) : ln.isInput = false ↔ ∀ f e v c, ln.role ≠ .input f e v c := by
  unfold Line.isInput
  cases ln.role with
  | input filter capture sensed candidate => exact ⟨nofun, fun h => absurd rfl (h filter capture sensed candidate)⟩
  | unused | output _ => exact ⟨fun _ => nofun, fun _ => rfl⟩

section
variable {u : State} {k : TriggerId} {l : LineId}

theorem State.armFields_trigger (u : State) (k : TriggerId) :
    u.armFields (BitVec.ofNat 8 k.val) = u8 k.val ++ u8 u.triggers[k].latch.code := by
  rw [State.armFields, idBelow_trigger]
  rfl

/-- An edge sense, and a level sense away from its active level, is armed (R88). -/
theorem State.arm_away {c : TriggerConfig} (h : c.sense.activeLevel ≠ some u.lines[c.line].sensedLevel) :
    u.arm k c = { u with triggers := u.triggers.set k ⟨.armed, some c⟩ } := if_neg h

/-- A level sense at its active level fires at once (R88). -/
theorem State.arm_active (hopen : u.isOpen = true) {c : TriggerConfig}
    (h : c.sense.activeLevel = some u.lines[c.line].sensedLevel) :
    u.arm k c = { u with
      triggers := u.triggers.set k ⟨.fired u.timeline u.timeline false, some c⟩
      events := if c.report then u.events.store (.triggerFired k c.line u.timeline 0) else u.events } := by
  refine (if_pos h).trans (State.queueEventIf_open ?_ _ _)
  exact hopen

/-- A field out of range is refused before the trigger and the line are looked at (R87). -/
theorem answerArmTrigger_badValue {line sense flags : Byte} (h : 16 ≤ line.toNat ∨ 5 ≤ sense.toNat ∨ 2 ≤ flags.toNat)
    (count : Byte) :
    answerArmTrigger (BitVec.ofNat 8 k.val) line sense count flags u =
      (u, .say .badValue (u8 k.val ++ u8 u.triggers[k].latch.code)) := by
  rw [← State.armFields_trigger]
  unfold answerArmTrigger
  split
  · rename_i hline hsense
    have hflags : 2 ≤ flags.toNat := by
      rcases h with h | h | h
      · rw [idBelow_ge h] at hline
        cases hline
      · rw [Sense.ofByte_ge h] at hsense
        cases hsense
      · exact h
    refine if_pos ?_
    rw [Bool.not_eq_true', ← Bool.not_eq_true, onlyFlags_one_iff]
    exact Nat.not_lt.mpr hflags
  · rfl

section
variable {sense flags : Byte} {sn : Sense} (hsense : Sense.ofByte sense = some sn) (hflags : flags.toNat < 2)
include hsense hflags

/-- With its fields in range Arm Trigger asks for a DISARMED trigger and an INPUT line (R87). -/
theorem answerArmTrigger_busy (h : u.triggers[k].latch ≠ .disarmed ∨ u.lines[l].isInput = false) (count : Byte) :
    answerArmTrigger (BitVec.ofNat 8 k.val) (BitVec.ofNat 8 l.val) sense count flags u =
      (u, .say .busy (u8 k.val ++ u8 u.triggers[k].latch.code)) := by
  rw [answerArmTrigger, idBelow_trigger, idBelow_line, hsense, State.armFields_trigger]
  dsimp only
  rw [if_neg (by simp [onlyFlags_one_iff, hflags])]
  split
  · rfl
  · rfl
  · rfl
  · rename_i hl
    exact if_pos (by rw [h.resolve_left (fun hn => hn hl)]; rfl)

theorem answerArmTrigger_accepted (hl : u.triggers[k].latch = .disarmed) (hinput : u.lines[l].isInput = true) (count : Byte)
    {u' : State} (harm : u.arm k ⟨l, sn, decide (count ≠ 0), count.toNat, flags.getLsbD 0⟩ = u') {code : Nat}
    (hcode : u'.triggers[k].latch.code = code) :
    answerArmTrigger (BitVec.ofNat 8 k.val) (BitVec.ofNat 8 l.val) sense count flags u =
      (u', .say .ok (u8 k.val ++ u8 code)) := by
  rw [← hcode, ← State.armFields_trigger, ← harm, answerArmTrigger, idBelow_trigger, idBelow_line, hsense]
  dsimp only
  rw [if_neg (by simp [onlyFlags_one_iff, hflags]), hl]
  dsimp only
  rw [if_neg (by rw [hinput]; nofun)]
  rfl

end
end

theorem isRequest_armTrigger {tag trigger line sense count flags : Byte} :
    IsRequest (.armTrigger tag trigger line sense count flags) 0x40 tag := ⟨fun _ => rfl, _, rfl, rfl, rfl⟩

/-! ### A gate that ends without a firing -/

section
variable {s : State} {t : TrackId} {c : Playback} {g : GateWait}

theorem State.endGate_continue (hst : s.tracks[t].state = .stalled c g) (ha : g.action = .continue) :
    s.endGate t = s.resumePage t c g .timeout := by
  unfold State.endGate
  rw [hst]
  dsimp only
  rw [ha]

theorem State.endGate_fault (hst : s.tracks[t].state = .stalled c g) (ha : g.action = .fault) :
    s.endGate t = s.gateFault t c g.trigger g.report (s.timeline - g.reached) := by
  unfold State.endGate
  rw [hst]
  dsimp only
  rw [ha]

/-- Page time resumes with the stall added and Gate Released queued (R100, R101, R104). -/
theorem State.resumePage_open (hopen : s.isOpen = true) (t : TrackId) (c : Playback) (g : GateWait) (outcome : GateOutcome) :
    s.resumePage t c g outcome = State.playFrom { s with
      tracks := s.tracks.set t { s.tracks[t] with state := .playing { c with stall := c.stall + (s.timeline - g.reached) } }
      events := if g.report then s.events.store (.gateReleased t g.trigger outcome (s.timeline - g.reached)) else s.events }
      t g.offset.toNat := by
  unfold State.resumePage
  rw [State.queueEventIf_open]
  · rfl
  · exact hopen

/-- A track faulted behind its page's retirement: a Stop Track END answered ABORTED, the track FAULTED at rest, and an event
(R73, R102). -/
theorem State.faulted_open (hopen : s.isOpen = true) (hnone : s.tracks[t].pendingConfig = none) (e : Event) :
    (((s.composeAborted (.stopEnd t)).settle t .faulted).applyRest t).queueEvent e = { s with
      tracks := s.tracks.set t (s.tracks[t].settled .faulted), lines := (s.restLines s.tracks[t].group).lines
      events := s.events.store e, link := (s.composeAborted (.stopEnd t)).link } := by
  have hcompose := (s.composeAborted_answered (.stopEnd t)).2
  have hsettle := State.settle_eq (s := s.composeAborted (.stopEnd t)) (t := t) (by rw [hcompose]; exact hnone) .faulted
  rw [State.settle_applyRest, hsettle]
  generalize s.composeAborted (.stopEnd t) = v at hcompose ⊢
  rw [hcompose]
  refine (State.queueEvent_open ?_ _).trans rfl
  exact hopen

/-- A gate's FAULT with no configuration pending: Gate Released, Page Retired and Track Fault in this order, the page retired,
the track FAULTED at rest, a Stop Track END answered ABORTED (R73, R102, R104). -/
theorem State.gateFault_open (hopen : s.isOpen = true) (hnone : s.tracks[t].pendingConfig = none) (c : Playback)
    (k : TriggerId) (report : Bool) (stall : Stamp) :
    let u := s.gateFault t c k report stall
    let reported := if report then s.events.store (.gateReleased t k .timeout stall) else s.events
    let retired := if s.tracks[t].reportRetired
      then reported.store (.pageRetired t c.page s.timeline .faulted c.repsPlayed) else reported
    u = { s with
      tracks := s.tracks.set t (s.tracks[t].settled .faulted)
      pages := s.pages.set c.page s.pages[c.page].leave
      events := retired.store (.trackFault t .gateTimeout s.timeline)
      lines := (s.restLines s.tracks[t].group).lines, link := u.link } ∧
    Link.Answered s.link u.link (.stopEnd t) (abortedReply (.stopEnd t)) := by
  intro u reported retired
  obtain ⟨w, hw⟩ : ∃ w : State, w = { s with pages := s.pages.set c.page s.pages[c.page].leave, events := retired } :=
    ⟨_, rfl⟩
  have hretire : ((s.queueEventIf report (.gateReleased t k .timeout stall)).applyPending t).retire t c .faulted = w := by
    rw [State.queueEventIf_open hopen, State.applyPending_none (by exact hnone), hw]
    exact State.retire_open (by exact hopen) t c .faulted
  have hlink : (w.composeAborted (.stopEnd t)).link = (s.composeAborted (.stopEnd t)).link :=
    State.compose_link_congr (by rw [hw]) _ _ _
  have hfaulted := State.faulted_open (s := w) (t := t) (by rw [hw]; exact hopen) (by rw [hw]; exact hnone)
    (.trackFault t .gateTimeout s.timeline)
  have hu : u = { s with
      tracks := s.tracks.set t (s.tracks[t].settled .faulted)
      pages := s.pages.set c.page s.pages[c.page].leave
      events := retired.store (.trackFault t .gateTimeout s.timeline)
      lines := (s.restLines s.tracks[t].group).lines, link := (s.composeAborted (.stopEnd t)).link } := by
    show s.gateFault t c k report stall = _
    rw [State.gateFault, hretire, hfaulted, hlink, hw]
    rfl
  have hanswered := (s.composeAborted_answered (.stopEnd t)).1
  rw [hu]
  exact ⟨rfl, hanswered⟩

theorem State.applyPending_withEvents (s : State) (events : EventUnit) (t : TrackId) :
    State.applyPending { s with events := events } t = { s.applyPending t with events := events } := by
  unfold State.applyPending
  dsimp only
  split <;> rfl

/-- An event takes no notice of a pending configuration. -/
theorem State.queueEventIf_applyPending (s : State) (wanted : Bool) (e : Event) (t : TrackId) :
    (s.queueEventIf wanted e).applyPending t = (s.applyPending t).queueEventIf wanted e := by
  rw [State.queueEventIf_eq, State.queueEventIf_eq, State.applyPending_isOpen, State.applyPending_events]
  exact State.applyPending_withEvents s _ t

/-- A gate's FAULT applies the pending configuration itself, so that it does not matter whether it was applied before (R55,
R102). -/
theorem State.gateFault_applyPending (s : State) (t : TrackId) (c : Playback) (k : TriggerId) (report : Bool) (stall : Stamp) :
    (s.applyPending t).gateFault t c k report stall = s.gateFault t c k report stall := by
  simp only [State.gateFault, State.queueEventIf_applyPending, State.applyPending_applyPending, State.applyPending_timeline]

end

/-! ### Disarm Trigger -/

section
variable {s : State} {k : TriggerId} {t : TrackId}

theorem State.dismiss_start (h : s.tracks[t].waitsOn k = some .start) : s.dismiss k t = s.cancelStart t .disarmed := by
  unfold State.dismiss
  rw [h]

theorem State.dismiss_gate (h : s.tracks[t].waitsOn k = some .gate) : s.dismiss k t = s.endGate t := by
  unfold State.dismiss
  rw [h]

/-- A gate that ends with FAULT faults its track (R102, R103). -/
theorem State.dismiss_fault {c : Playback} {g : GateWait} (h : s.tracks[t].waitsOn k = some .gate)
    (hst : s.tracks[t].state = .stalled c g) (ha : g.action = .fault) :
    s.dismiss k t = s.gateFault t c g.trigger g.report (s.timeline - g.reached) := by
  rw [State.dismiss_gate h, State.endGate_fault hst ha]

/-- A gate that ends with CONTINUE resumes its track (R101, R103). -/
theorem State.dismiss_continue {c : Playback} {g : GateWait} (h : s.tracks[t].waitsOn k = some .gate)
    (hst : s.tracks[t].state = .stalled c g) (ha : g.action = .continue) :
    s.dismiss k t = s.resumePage t c g .timeout := by
  rw [State.dismiss_gate h, State.endGate_continue hst ha]

theorem Track.waitsOn_congr {tr tr' : Track} (h : tr.state = tr'.state) (k : TriggerId) : tr.waitsOn k = tr'.waitsOn k := by
  rw [Track.waitsOn, h]
  rfl

/-- A track of a set of consumers that is STALLED waits at its gate. -/
theorem Track.waitsOn_stalled {tr : Track} {c : Playback} {g : GateWait} (hst : tr.state = .stalled c g)
    (h : (tr.waitsOn k).isSome = true) : g.trigger = k ∧ g.resume = none := by
  rw [Track.waitsOn, hst] at h
  dsimp only at h
  by_contra hnot
  rw [if_neg hnot] at h
  cases h

theorem answerDisarmTrigger_disarmed (h : s.triggers[k].latch = .disarmed) :
    answerDisarmTrigger (BitVec.ofNat 8 k.val) s = (s, .say .ok (zeros 3)) := by
  rw [answerDisarmTrigger, idBelow_trigger]
  dsimp only
  rw [h]

/-- A trigger that is not DISARMED is disarmed, and its consumers are counted by kind (R94). -/
theorem answerDisarmTrigger_watching (h : s.triggers[k].latch ≠ .disarmed) :
    answerDisarmTrigger (BitVec.ofNat 8 k.val) s =
      (s.disarm k, .say .ok (u8 k.val ++ u8 (s.marked k .start) ++ u8 (s.marked k .gate))) := by
  rw [answerDisarmTrigger, idBelow_trigger]
  dsimp only
  split
  · contradiction
  all_goals rfl

theorem answerDisarmTrigger_unwaited (h : s.triggers[k].latch ≠ .disarmed) (hnone : s.consumers k = []) :
    answerDisarmTrigger (BitVec.ofNat 8 k.val) s =
      (s.setLatch k .disarmed, .say .ok (u8 k.val ++ u8 0 ++ u8 0)) := by
  rw [answerDisarmTrigger_watching h, State.disarm, State.marked, State.marked, hnone]
  rfl

/-- With one consumer, disarming ends its wait alone (R94). -/
theorem answerDisarmTrigger_single (h : s.triggers[k].latch ≠ .disarmed) (hone : s.consumers k = [t]) :
    answerDisarmTrigger (BitVec.ofNat 8 k.val) s =
      ((s.setLatch k .disarmed).dismiss k t, .say .ok (u8 k.val ++
        u8 (if s.tracks[t].waitsOn k == some .start then 1 else 0) ++
        u8 (if s.tracks[t].waitsOn k == some .gate then 1 else 0))) := by
  rw [answerDisarmTrigger_watching h, State.disarm, State.marked, State.marked, hone, List.countP_singleton,
    List.countP_singleton]
  rfl

theorem answerDisarmTrigger_start (h : s.triggers[k].latch ≠ .disarmed) (hone : s.consumers k = [t])
    (hwait : s.tracks[t].waitsOn k = some .start) :
    answerDisarmTrigger (BitVec.ofNat 8 k.val) s =
      ((s.setLatch k .disarmed).cancelStart t .disarmed, .say .ok (u8 k.val ++ u8 1 ++ u8 0)) := by
  rw [answerDisarmTrigger_single h hone, State.dismiss_start (by exact hwait), hwait]
  rfl

theorem answerDisarmTrigger_continue {c : Playback} {g : GateWait} (h : s.triggers[k].latch ≠ .disarmed)
    (hone : s.consumers k = [t]) (hst : s.tracks[t].state = .stalled c g) (ha : g.action = .continue) :
    answerDisarmTrigger (BitVec.ofNat 8 k.val) s =
      ((s.setLatch k .disarmed).resumePage t c g .timeout, .say .ok (u8 k.val ++ u8 0 ++ u8 1)) := by
  have hsome : (s.tracks[t].waitsOn k).isSome = true := (s.mem_consumers k t).mp (by rw [hone]; exact List.mem_singleton_self t)
  obtain ⟨hk, hr⟩ := Track.waitsOn_stalled hst hsome
  have hwait : s.tracks[t].waitsOn k = some .gate := (Track.waitsOn_gate_iff _ _).mpr ⟨c, g, hst, hk, hr⟩
  rw [answerDisarmTrigger_single h hone, State.dismiss_continue (by exact hwait) (by exact hst) ha, hwait]
  rfl

/-- The consumers with a mark are the tracks that wait with it (R84). -/
theorem State.marked_eq (s : State) (k : TriggerId) (m : Mark) :
    s.marked k m = allTracks.countP fun t => s.tracks[t].waitsOn k == some m := by
  rw [State.marked, State.consumers, List.countP_filter]
  simp only [Track.waitsOn_beq_and_isSome]

/-- Whether a track is ARMED on a trigger (R84). -/
def Track.startsOn (tr : Track) (k : TriggerId) : Bool :=
  match tr.state with
  | .armed ⟨.onTrigger j _, _⟩ => j == k
  | _ => false

/-- Whether a track is STALLED at a gate on a trigger and not yet released (R84, R100). -/
def Track.gatesOn (tr : Track) (k : TriggerId) : Bool :=
  match tr.state with
  | .stalled _ g => g.trigger == k && g.resume.isNone
  | _ => false

theorem Track.startsOn_eq (tr : Track) (k : TriggerId) : tr.startsOn k = (tr.waitsOn k == some .start) := by
  rw [Bool.eq_iff_iff, beq_iff_eq, Track.waitsOn_start_iff]
  unfold Track.startsOn
  split
  · rename_i hst
    simp [hst]
  · rename_i hother
    exact ⟨nofun, fun ⟨offset, reply, hst⟩ => absurd hst (hother k offset reply)⟩

theorem Track.gatesOn_eq (tr : Track) (k : TriggerId) : tr.gatesOn k = (tr.waitsOn k == some .gate) := by
  rw [Bool.eq_iff_iff, beq_iff_eq, Track.waitsOn_gate_iff]
  unfold Track.gatesOn
  split
  · rename_i hst
    simp [hst]
  · rename_i hother
    exact ⟨nofun, fun ⟨p, w, hst, _⟩ => absurd hst (hother p w)⟩

theorem Track.waitsOn_isSome (tr : Track) (k : TriggerId) :
    (tr.waitsOn k).isSome = (tr.startsOn k || tr.gatesOn k) := by
  rw [Track.startsOn_eq, Track.gatesOn_eq]
  cases tr.waitsOn k with
  | none => rfl
  | some mark => cases mark <;> rfl

end

theorem isRequest_disarmTrigger {tag trigger : Byte} : IsRequest (.disarmTrigger tag trigger) 0x41 tag :=
  ⟨fun _ => rfl, _, rfl, rfl, rfl⟩

/-- Settles O39: Arm Trigger's checks and the two outcomes of its sense; Disarm Trigger's consumers one after another, each by
the way in which it waits. -/
theorem triggersAreArmedAndDisarmed : Obligations.TriggersAreArmedAndDisarmed := by
  unfold Obligations.TriggersAreArmedAndDisarmed
  refine ⟨fun s tag k l sense count flags sn hopen hx hsense hflags => ?_, fun s tag line sense count flags k _ hx hbad => ?_,
    fun s tag k hopen hx => ?_, fun s k t hopen => ⟨fun offset reply hst => ?_, fun c g hst hk hr => ?_⟩⟩
  · have hopen' : s.restartSilence.isOpen = true := (State.isOpen_restartSilence s).trans hopen
    obtain ⟨session, hb⟩ := s.restartSilence_eq
    rw [hb] at hopen'
    simp only [hb]
    refine ⟨fun hbusy => ?_, fun filter capture sensed candidate hl hrole => ?_⟩
    · rw [← Line.isInput_eq_false_iff] at hbusy
      exact isRequest_armTrigger.reply hx hb
        (answerArmTrigger_busy (u := { s with session := session }) hsense hflags hbusy count)
    · have hinput : s.lines[l].isInput = true := by rw [Line.isInput, hrole]
      have hsensed : s.lines[l].sensedLevel = sensed := by rw [Line.sensedLevel, hrole]
      have accepted {u' code} := answerArmTrigger_accepted (u := { s with session := session }) (u' := u') (code := code)
        hsense hflags hl hinput count
      rw [← Sense.activeLevel_eq_some_iff, ← hsensed]
      refine ⟨fun haway => ?_, fun hactive => ?_⟩
      · exact isRequest_armTrigger.reply hx hb (accepted (State.arm_away haway) (by simp [Latch.code]))
      · exact isRequest_armTrigger.reply hx hb (accepted (State.arm_active hopen' hactive) (by simp [Latch.code]))
  · obtain ⟨session, hb⟩ := s.restartSilence_eq
    rw [hb]
    exact isRequest_armTrigger.reply hx hb (answerArmTrigger_badValue (u := { s with session := session }) hbad count)
  · have hopen' : s.restartSilence.isOpen = true := (State.isOpen_restartSilence s).trans hopen
    obtain ⟨session, hb⟩ := s.restartSilence_eq
    rw [hb] at hopen'
    simp only [hb]
    refine ⟨fun hl => ?_, fun hl hnone => ?_, fun t c g hl hone hst ha => ?_, fun t offset reply hl hone hst => ?_, ?_,
      fun hl => ?_⟩
    · exact isRequest_disarmTrigger.reply hx hb (answerDisarmTrigger_disarmed (s := { s with session := session }) hl)
    · exact isRequest_disarmTrigger.reply hx hb
        (answerDisarmTrigger_unwaited (s := { s with session := session }) hl hnone)
    · have hresume := State.resumePage_open (s := State.setLatch { s with session := session } k .disarmed) hopen' t c g .timeout
      have hanswer := answerDisarmTrigger_continue (s := { s with session := session }) hl hone hst ha
      rw [hresume] at hanswer
      exact isRequest_disarmTrigger.reply hx hb hanswer
    · have hwait : s.tracks[t].waitsOn k = some .start := (Track.waitsOn_start_iff _ _).mpr ⟨offset, reply, hst⟩
      have hanswer := answerDisarmTrigger_start (s := { s with session := session }) hl hone hwait
      obtain ⟨hu, _⟩ := State.cancelStart_open (s := State.setLatch { s with session := session } k .disarmed) hopen' t .disarmed
      have hget (v : TrackId) := State.cancelStart_get (State.setLatch { s with session := session } k .disarmed) t v .disarmed
      refine ⟨_, isRequest_disarmTrigger.reply hx hb hanswer, State.cancelStart_triggers _ _ _, ?_, ?_,
        State.cancelStart_lines _ _ _, State.cancelStart_pages _ _ _, ?_, fun v hv => (hget v).trans (if_neg hv)⟩
      · rw [hget, if_pos rfl]
        rfl
      · rw [hget, if_pos rfl]
        rfl
      · rw [hu]
        rfl
    · simp only [State.consumers, Track.waitsOn_isSome]
      rfl
    · refine isRequest_disarmTrigger.reply hx hb
        ((answerDisarmTrigger_watching (s := { s with session := session }) hl).trans ?_)
      simp only [State.marked_eq, ← Track.startsOn_eq, ← Track.gatesOn_eq]
      rfl
  · have hwait : s.tracks[t].waitsOn k = some .start := (Track.waitsOn_start_iff _ _).mpr ⟨offset, reply, hst⟩
    rw [State.dismiss_start hwait]
    exact State.cancelStart_open hopen t .disarmed
  · have hwait : s.tracks[t].waitsOn k = some .gate := (Track.waitsOn_gate_iff _ _).mpr ⟨c, g, hst, hk, hr⟩
    subst hk
    refine ⟨fun ha => ?_, fun ha hnone => ?_, fun s' q ha happlied => ?_⟩
    · rw [State.dismiss_continue hwait hst ha, State.resumePage_open hopen]
    · obtain ⟨hu, hanswered⟩ := State.gateFault_open hopen hnone c g.trigger g.report (s.timeline - g.reached)
      rw [← State.dismiss_fault hwait hst ha] at hu hanswered
      have hlines : (s.dismiss g.trigger t).lines = (s.restLines s.tracks[t].group).lines := by rw [hu]
      rw [hlines]
      exact ⟨hu, hanswered, fun l => State.restLines_get s _ l⟩
    · have hst' : (s.applyPending t).tracks[t].state = .stalled c g := (s.applyPending_state t t).trans hst
      have hwait' := (Track.waitsOn_congr (s.applyPending_state t t) g.trigger).trans hwait
      rw [happlied.eq, State.dismiss_fault hwait hst ha, State.dismiss_fault hwait' hst' ha, State.gateFault_applyPending,
        State.applyPending_timeline]

end Sys2Proof.Machine
end

section
/-! The idle step: what is due, the choice among it, and one period of the base clock (R106, R141, R160, R165, R181, R184,
R185). -/
namespace Sys2Proof.Machine

/-! ### What is due now -/

theorem resetEnd_not_mem_timers (straps : BitVec 2) : Instr.resetEnd straps ∉ timers := by
  simp [timers]

/-- What can be scheduled is a timer, the next frame, or the end of a reset. -/
theorem State.scheduled_of_due {s : State} {c : Instr} {d : Nat} (h : s.due c = some d) :
    c ∈ timers ∨ c = .transmitNextFrame ∨ ∃ straps, c = .resetEnd straps := by
  cases c with
  | transmitNextFrame => exact .inr (.inl rfl)
  | resetEnd straps => exact .inr (.inr ⟨straps, rfl⟩)
  | startUpEnd | keepaliveExpiry | gapTimeout | journalWaitExpiry | missingPulseExpiry | resetRequest => simp [timers]
  | firingAgeDiscard k => simp [timers, allTriggers]
  | gateExpiry t | gateResume t | armedStartEffect t | releaseStartEffect t | trackActionTick t => simp [timers, allTracks]
  | edgeAcceptance l => simp [timers, allLines]
  | _ => cases h

theorem State.mem_dueNow_iff (s : State) (c : Instr) :
    c ∈ s.dueNow ↔ s.due c = some 0 ∧ ∀ straps, c = .resetEnd straps → straps = s.straps := by
  have hdue : c ∈ s.dueNow ↔ c ∈ timers ++ [.transmitNextFrame, .resetEnd s.straps] ∧ s.due c = some 0 := by
    rw [State.dueNow, List.mem_filter, beq_iff_eq]
  rw [hdue]
  constructor
  · rintro ⟨hmem, hzero⟩
    refine ⟨hzero, fun straps hc => ?_⟩
    subst hc
    simpa [resetEnd_not_mem_timers] using hmem
  · rintro ⟨hzero, hstraps⟩
    refine ⟨?_, hzero⟩
    rcases State.scheduled_of_due hzero with hmem | rfl | ⟨straps, rfl⟩
    · exact List.mem_append_left _ hmem
    · simp
    · simp [hstraps straps rfl]

/-! ### The choice among what is due -/

theorem State.choose_of_none_due {s : State} (h : s.dueNow = []) : s.choose = none := by
  rw [State.choose, h]

/-- The order code is read within the number of the actions due, so that it names one of them (log entry 4). -/
theorem State.choose_of_due {s : State} (h : s.dueNow ≠ []) : ∃ c ∈ s.dueNow, s.choose = some c := by
  unfold State.choose
  match hdue : s.dueNow with
  | [] => exact absurd hdue h
  | [c] => exact ⟨c, List.mem_singleton_self c, rfl⟩
  | c :: d :: rest =>
    have hlt : Config.dueOrder s.choices % (rest.length + 2) < (c :: d :: rest).length := Nat.mod_lt _ (Nat.succ_pos _)
    exact ⟨_, List.getElem_mem hlt, List.getElem?_eq_getElem hlt⟩

theorem step_of_none_due {s : State} (hpending : s.pending = []) (h : s.dueNow = []) : step s = .next s.tick := by
  rw [step, hpending]
  dsimp only
  rw [State.choose_of_none_due h]

theorem step_of_due {s : State} (hpending : s.pending = []) (h : s.dueNow ≠ []) :
    ∃ c ∈ s.dueNow, step s = exec c { s with choices := s.choices + 1 } := by
  obtain ⟨c, hmem, hchoose⟩ := State.choose_of_due h
  refine ⟨c, hmem, ?_⟩
  rw [step, hpending]
  dsimp only
  rw [hchoose]

/-! ### One period of the base clock -/

theorem State.tick_of_reset {s : State} (h : s.phase = .reset) : s.tick = s := if_pos h

section
variable {s : State}

/-- The timeline advances in the period that completes the divider's count (R106). -/
theorem State.tick_timeline (hphase : s.phase ≠ .reset) (hcount : s.prescale < s.divider) :
    s.tick.timeline = if s.prescale + 1 = s.divider then s.timeline + 1 else s.timeline := by
  rw [State.tick, State.advance, if_neg hphase]
  dsimp only
  split
  · next hfull =>
    rw [hfull, Nat.div_self (Nat.zero_lt_of_lt hcount)]
    rfl
  · rw [Nat.div_eq_of_lt (by omega), BitVec.add_zero]

/-- The divider's count begins again when it is complete (R106). -/
theorem State.tick_prescale (hphase : s.phase ≠ .reset) (hcount : s.prescale < s.divider) :
    s.tick.prescale = if s.prescale + 1 = s.divider then 0 else s.prescale + 1 := by
  rw [State.tick, State.advance, if_neg hphase]
  dsimp only
  split
  · next hfull => rw [hfull, Nat.mod_self]
  · exact Nat.mod_eq_of_lt (by omega)

/-- The counters that run beside the timeline (R141, R160, R165, R181, R185). -/
theorem State.tick_counters (hphase : s.phase ≠ .reset) :
    s.tick = { s with
      timeline := s.tick.timeline
      prescale := s.tick.prescale
      phase := s.phase.passed 1
      session := { s.session with silence := s.session.silence.map (· - 1) }
      journal := { s.journal with waiting := s.journal.waiting.map (WaitingRead.passed 1) }
      link := { s.link with
        sinceByte := min (s.link.sinceByte + 1) (gapPeriods s.linkRate)
        txd := s.link.txd.map (TxFrame.passed 1) } } := by
  rw [State.tick, State.advance, if_neg hphase, gapLimit_eq_gapPeriods]

end

theorem Phase.passed_eq (n : Nat) (phase : Phase) :
    phase.passed n = match phase with
      | .startUp remaining => .startUp (remaining - n)
      | other => other := by
  cases phase <;> rfl

/-- Settles O2: with nothing due the step is one period of the base clock, otherwise an action chosen among those due. -/
theorem idleStepLetsOnePeriodPass : Obligations.IdleStepLetsOnePeriodPass := by
  unfold Obligations.IdleStepLetsOnePeriodPass
  refine ⟨fun s hpending hdue hphase hcount => ?_, fun s hpending hdue hphase => ?_, fun s => step_of_due, State.mem_dueNow_iff⟩
  · rw [step_of_none_due hpending hdue, State.tick_counters hphase, State.tick_timeline hphase hcount,
      State.tick_prescale hphase hcount, Phase.passed_eq]
    rfl
  · rw [step_of_none_due hpending hdue, State.tick_of_reset hphase]

end Sys2Proof.Machine
end

section
/-! Set Tick and Set Reference (R110, R115). -/
namespace Sys2Proof.Machine

/-! ### Set Tick -/

theorem u8_toNat (b : Byte) : u8 b.toNat = [b] := by
  simp [u8]

theorem isDivider_iff (n : Nat) : isDivider n = true ↔ n ∈ [1, 2, 4, 8, 16, 32, 64, 128] := decide_eq_true_iff

/-- Nothing depends on the tick: every track is DISABLED or IDLE, every trigger DISARMED, the journal empty (R110). -/
def State.TickUnused (s : State) : Prop :=
  (∀ t : TrackId, s.tracks[t].state = .disabled ∨ s.tracks[t].state = .idle) ∧
    (∀ k : TriggerId, s.triggers[k].latch = .disarmed) ∧ s.journal.records = []

theorem State.tracksQuiet_iff (s : State) :
    s.tracksQuiet = true ↔ ∀ t : TrackId, s.tracks[t].state = .disabled ∨ s.tracks[t].state = .idle := by
  rw [State.tracksQuiet, allTracks, List.all_eq_true]
  refine ⟨fun h t => ?_, fun h t _ => ?_⟩
  · have hquiet := h t (List.mem_finRange t)
    cases hst : s.tracks[t].state with
    | disabled => exact .inl rfl
    | idle => exact .inr rfl
    | _ => rw [hst] at hquiet; cases hquiet
  · rcases h t with hst | hst <;> rw [hst]

theorem State.triggersQuiet_iff (s : State) :
    s.triggersQuiet = true ↔ ∀ k : TriggerId, s.triggers[k].latch = .disarmed := by
  simp [State.triggersQuiet, allTriggers]

/-- Set Tick's three checks of what depends on the tick, taken together (R110). -/
theorem State.tickUnused_iff (s : State) :
    s.TickUnused ↔ s.tracksQuiet = true ∧ s.triggersQuiet = true ∧ s.journal.records.isEmpty = true := by
  rw [State.TickUnused, State.tracksQuiet_iff, State.triggersQuiet_iff, List.isEmpty_iff]

section
variable {divider : Byte} {u : State}

theorem answerSetTick_badValue (h : isDivider divider.toNat = false) :
    answerSetTick divider u = (u, .say .badValue (zeros 8)) := by
  rw [answerSetTick, h]
  rfl

theorem answerSetTick_busy (h : isDivider divider.toNat = true) (hused : ¬u.TickUnused) :
    answerSetTick divider u = (u, .say .busy (zeros 8)) := by
  rw [State.tickUnused_iff] at hused
  rw [answerSetTick, h]
  cases htracks : u.tracksQuiet with
  | false => rfl
  | true =>
    cases htriggers : u.triggersQuiet with
    | false => rfl
    | true =>
      have hrecords : u.journal.records.isEmpty = false :=
        Bool.eq_false_iff.mpr fun hempty => hused ⟨htracks, htriggers, hempty⟩
      rw [hrecords]
      rfl

theorem answerSetTick_accepted (h : isDivider divider.toNat = true) (hunused : u.TickUnused) :
    answerSetTick divider u =
      let u' := if divider.toNat = u.divider then u else u.changeDivider divider.toNat
      (u', .say .ok (u8 u'.divider ++ le48 u'.timeline ++ u8 u'.reference.status.code)) := by
  obtain ⟨htracks, htriggers, hrecords⟩ := u.tickUnused_iff.mp hunused
  rw [answerSetTick, h, htracks, htriggers, hrecords]
  rfl

/-- The divider in force changes nothing. -/
theorem answerSetTick_same (h : isDivider divider.toNat = true) (hunused : u.TickUnused)
    (hsame : divider.toNat = u.divider) :
    answerSetTick divider u = (u, .say .ok ([divider] ++ le48 u.timeline ++ u8 u.reference.status.code)) := by
  rw [answerSetTick_accepted h hunused, if_pos hsame]
  dsimp only
  rw [← hsame, u8_toNat]

theorem answerSetTick_changed (h : isDivider divider.toNat = true) (hunused : u.TickUnused)
    (hchanged : divider.toNat ≠ u.divider) :
    answerSetTick divider u = (u.changeDivider divider.toNat, .say .ok
      ([divider] ++ le48 u.timeline ++ u8 (u.changeDivider divider.toNat).reference.status.code)) := by
  rw [answerSetTick_accepted h hunused, if_neg hchanged]
  exact congrArg (fun byte => (_, Answer.say .ok (byte ++ _ ++ _))) (u8_toNat divider)

end

/-! ### Set Reference -/

theorem referenceArguments_iff (interval : Word32) (window : Word16) :
    referenceArguments interval window = true ↔
      (interval = 0 ∧ window = 0) ∨ (1000 ≤ interval.toNat ∧ window.toNat < interval.toNat) := by
  unfold referenceArguments
  split
  · next hzero => simp [hzero]
  · next hinterval => rw [decide_eq_true_iff, or_iff_right fun hboth => hinterval hboth.1]

theorem Track.onEpoch_eq_false_iff (tr : Track) :
    tr.onEpoch = false ↔ ∀ n o reply, tr.state ≠ .armed ⟨.onEpoch n o, reply⟩ := by
  unfold Track.onEpoch
  split
  · next n o reply hst => exact ⟨nofun, fun h => absurd hst (h n o reply)⟩
  · next hother => exact ⟨fun _ => hother, fun _ => rfl⟩

/-- No track is counted exactly when none is ARMED in form ON_EPOCH (R116). -/
theorem State.epochArmed_eq_zero_iff (s : State) :
    s.epochArmed = 0 ↔ ∀ t : TrackId, ∀ n o reply, s.tracks[t].state ≠ .armed ⟨.onEpoch n o, reply⟩ := by
  simp only [State.epochArmed, List.countP_eq_zero, allTracks, List.mem_finRange, true_imp_iff, Bool.not_eq_true,
    Track.onEpoch_eq_false_iff]

section
variable {interval : Word32} {window : Word16} {u : State}

theorem answerSetReference_badValue (h : referenceArguments interval window = false) :
    answerSetReference interval window u = (u, .say .badValue (zeros 8)) := by
  rw [answerSetReference, h]
  rfl

theorem answerSetReference_busy (h : referenceArguments interval window = true) (harmed : u.epochArmed ≠ 0) :
    answerSetReference interval window u = (u, .say .busy (zeros 8)) := by
  rw [answerSetReference, h]
  exact if_pos harmed

theorem answerSetReference_accepted (h : referenceArguments interval window = true) (hfree : u.epochArmed = 0) :
    answerSetReference interval window u =
      let status : RefStatus := if interval = 0 then .free else .seeking
      ({ u with reference := ⟨u.reference.epoch, u.reference.lastPulse, status, interval, window, none, 0, none⟩ },
        .say .ok (u8 u.reference.status.code ++ u8 status.code ++ le48 u.timeline)) := by
  rw [answerSetReference, h]
  exact if_neg (not_not.mpr hfree)

end

/-- Settles O46: each request is refused by its first failing check, and otherwise changes its block alone. -/
theorem ratesAreSetWhenNothingDependsOnThem : Obligations.RatesAreSetWhenNothingDependsOnThem := by
  unfold Obligations.RatesAreSetWhenNothingDependsOnThem
  intro s tag _
  obtain ⟨session, hb⟩ := s.restartSilence_eq
  have setTick (divider : Byte) : IsRequest (.setTick tag divider) 0x11 tag := ⟨fun _ => rfl, _, rfl, rfl, rfl⟩
  have setReference (interval : Word32) (window : Word16) : IsRequest (.setReference tag interval window) 0x12 tag :=
    ⟨fun _ => rfl, _, rfl, rfl, rfl⟩
  simp only [hb, ← isDivider_iff, ← referenceArguments_iff, Bool.not_eq_true, ← State.epochArmed_eq_zero_iff]
  refine ⟨fun hx divider hbad => ?_, fun hx divider hd => ⟨fun hquiet hsame => ?_, fun hquiet hchanged => ?_, fun hused => ?_⟩,
    fun hx interval window hbad => ?_, fun hx interval window hargs => ⟨fun hfree => ?_, fun harmed => ?_⟩⟩
  · exact (setTick divider).reply hx hb (answerSetTick_badValue hbad)
  · exact (setTick divider).reply hx hb (answerSetTick_same (u := { s with session := session }) hd hquiet hsame)
  · exact (setTick divider).reply hx hb (answerSetTick_changed (u := { s with session := session }) hd hquiet hchanged)
  · exact (setTick divider).reply hx hb (answerSetTick_busy (u := { s with session := session }) hd hused)
  · exact (setReference interval window).reply hx hb (answerSetReference_badValue hbad)
  · exact (setReference interval window).reply hx hb
      (answerSetReference_accepted (u := { s with session := session }) hargs hfree)
  · exact (setReference interval window).reply hx hb
      (answerSetReference_busy (u := { s with session := session }) hargs harmed)

end Sys2Proof.Machine
end

section
/-! Configure Line (R119, R123, R126, R127, R135). -/
namespace Sys2Proof.Machine

/-! ### The checks of Configure Line -/

/-- The arguments name a role, a rest level and capture edges, and a line that is no input has no filter and no capture edges
(R126). -/
def LineArguments (role rest filter capture : Byte) : Prop :=
  role.toNat ≤ 2 ∧ rest.toNat ≤ 1 ∧ capture.toNat ≤ 3 ∧ (role.toNat ≠ 2 → filter = 0 ∧ capture = 0)

/-- No track owns the line and no trigger holds it (R126). -/
def State.LineFree (s : State) (l : LineId) : Prop :=
  (∀ t : TrackId, s.tracks[t].group.getLsbD l = false) ∧
    ∀ (k : TriggerId) (c : TriggerConfig), s.triggers[k].config = some c → c.line = l → s.triggers[k].latch = .disarmed

theorem State.holdsLine_eq_true_iff (s : State) (l : LineId) (k : TriggerId) :
    s.holdsLine l k = true ↔ ∃ c, s.triggers[k].config = some c ∧ c.line = l ∧ s.triggers[k].latch ≠ .disarmed := by
  simp only [State.holdsLine_eq, Bool.and_eq_true, decide_eq_true_eq, beq_iff_eq, Option.map_eq_some_iff]
  exact ⟨fun ⟨hl, c, hc, hline⟩ => ⟨c, hc, hline, hl⟩, fun ⟨c, hc, hline, hl⟩ => ⟨hl, c, hc, hline⟩⟩

theorem State.lineOwner_eq_none_iff (s : State) (l : LineId) :
    s.lineOwner l = none ↔ ∀ t : TrackId, s.tracks[t].group.getLsbD l = false := by
  simp [State.lineOwner, allTracks]

theorem State.lineFree_iff (s : State) (l : LineId) :
    s.LineFree l ↔ s.lineOwner l = none ∧ allTriggers.any (s.holdsLine l) = false := by
  rw [State.LineFree, State.lineOwner_eq_none_iff, List.any_eq_false]
  refine and_congr_right fun _ => forall_congr' fun k => ?_
  rw [State.holdsLine_eq_true_iff]
  refine ⟨fun h _ ⟨c, hc, hline, hlatch⟩ => hlatch (h c hc hline), fun h c hc hline => ?_⟩
  exact by_contra fun hlatch => h (List.mem_finRange k) ⟨c, hc, hline, hlatch⟩

theorem CaptureEdges.ofByte_gt {capture : Byte} (h : 3 < capture.toNat) : CaptureEdges.ofByte capture = Option.none := by
  unfold CaptureEdges.ofByte
  split
  case h_5 => rfl
  all_goals omega

theorem CaptureEdges.ofByte_le {capture : Byte} (h : capture.toNat ≤ 3) :
    ∃ c, CaptureEdges.ofByte capture = some c ∧ (c = .none ↔ capture = 0) :=
  (by decide +kernel : ∀ capture : Byte, capture.toNat ≤ 3 →
    ∃ c ∈ [CaptureEdges.none, .rise, .fall, .both], CaptureEdges.ofByte capture = some c ∧ (c = .none ↔ capture = 0))
    capture h |>.imp fun _ => And.right

@[simp] theorem CaptureEdges.ofByte_code (c : CaptureEdges) : CaptureEdges.ofByte (BitVec.ofNat 8 c.code) = some c := by
  cases c <;> rfl

theorem State.lineFields_line (u : State) (l : LineId) (withLevel : Bool) :
    u.lineFields (BitVec.ofNat 8 l.val) withLevel =
      u8 l.val ++ u8 u.lines[l].role.code ++ u8 (if withLevel then u.lines[l].level.toNat else 0) := by
  rw [State.lineFields, idBelow_line]
  cases withLevel <;> rfl

section
variable {role rest filter capture : Byte} {u : State} {l : LineId}

theorem answerConfigureLine_badValue (h : ¬LineArguments role rest filter capture) :
    answerConfigureLine (BitVec.ofNat 8 l.val) role rest filter capture u =
      (u, .say .badValue (u8 l.val ++ u8 u.lines[l].role.code ++ u8 0)) := by
  rw [answerConfigureLine, State.lineFields_line, idBelow_line]
  by_cases hcapture : capture.toNat ≤ 3
  · obtain ⟨c, hc, hzero⟩ := CaptureEdges.ofByte_le hcapture
    rw [hc]
    refine if_pos ?_
    unfold LineArguments at h
    rw [ne_eq c, hzero]
    by_contra hgood
    push Not at hgood
    obtain ⟨hrole, hrest, hother⟩ := hgood
    exact h ⟨hrole, hrest, hcapture, hother⟩
  · rw [CaptureEdges.ofByte_gt (Nat.lt_of_not_le hcapture)]
    rfl

/-- Past the range checks the owner and the holders of the line refuse it BUSY. -/
theorem answerConfigureLine_eq (h : LineArguments role rest filter capture) {c : CaptureEdges}
    (hc : CaptureEdges.ofByte capture = some c) :
    answerConfigureLine (BitVec.ofNat 8 l.val) role rest filter capture u =
      if (u.lineOwner l).isSome ∨ allTriggers.any (u.holdsLine l) then
        (u, .say .busy (u8 l.val ++ u8 u.lines[l].role.code ++ u8 0))
      else
        let u' := (u.setLine l role.toNat (rest == 1) filter c).acceptUnfiltered l
        (u', .say .ok (u8 l.val ++ u8 u'.lines[l].role.code ++ u8 u'.lines[l].level.toNat)) := by
  obtain ⟨hrole, hrest, hcapture, hother⟩ := h
  obtain ⟨c', hc', hzero⟩ := CaptureEdges.ofByte_le hcapture
  obtain rfl : c = c' := Option.some.inj (hc.symm.trans hc')
  simp only [answerConfigureLine, idBelow_line, hc, State.lineFields_line]
  rw [if_neg]
  · rw [ite_or]
    rfl
  · rw [ne_eq c, hzero]
    push Not
    exact ⟨hrole, hrest, hother⟩

theorem answerConfigureLine_busy (h : LineArguments role rest filter capture) (hused : ¬u.LineFree l) :
    answerConfigureLine (BitVec.ofNat 8 l.val) role rest filter capture u =
      (u, .say .busy (u8 l.val ++ u8 u.lines[l].role.code ++ u8 0)) := by
  have ⟨_, _, hcapture, _⟩ := h
  obtain ⟨c, hc, _⟩ := CaptureEdges.ofByte_le hcapture
  rw [answerConfigureLine_eq h hc, if_pos]
  rw [State.lineFree_iff, ← Option.not_isSome_iff_eq_none, ← Bool.not_eq_true] at hused
  by_contra hfree
  exact hused (not_or.mp hfree)

theorem answerConfigureLine_accepted (h : LineArguments role rest filter capture) {c : CaptureEdges}
    (hc : CaptureEdges.ofByte capture = some c) (hfree : u.LineFree l) :
    answerConfigureLine (BitVec.ofNat 8 l.val) role rest filter capture u =
      let u' := (u.setLine l role.toNat (rest == 1) filter c).acceptUnfiltered l
      (u', .say .ok (u8 l.val ++ u8 u'.lines[l].role.code ++ u8 u'.lines[l].level.toNat)) := by
  obtain ⟨howner, hholders⟩ := (u.lineFree_iff l).mp hfree
  rw [answerConfigureLine_eq h hc, if_neg]
  rw [howner, hholders]
  decide

end

/-! ### The line that Configure Line sets -/

theorem State.unfiltered_eq_false_iff (s : State) (m : LineId) :
    s.unfiltered m = false ↔ ∀ capture sensed f, s.lines[m].role ≠ .input 0 capture sensed (some f) := by
  unfold State.unfiltered
  generalize s.lines[m].role = role
  cases role with
  | unused => exact ⟨fun _ => nofun, fun _ => rfl⟩
  | output driven => exact ⟨fun _ => nofun, fun _ => rfl⟩
  | input filter capture sensed candidate =>
    cases candidate with
    | none => exact ⟨fun _ => nofun, fun _ => rfl⟩
    | some f =>
      refine ⟨fun h capture' sensed' f' heq => ?_, fun h => decide_eq_false fun hzero => h capture sensed f (by rw [hzero])⟩
      injection heq with hzero
      exact of_decide_eq_false h hzero

theorem LineRole.toInput_of_other {role : LineRole} (h : ∀ f e v c, role ≠ .input f e v c) (filter : Byte)
    (capture : CaptureEdges) (pin : Bool) (now : Stamp) :
    role.toInput filter capture pin now = .input filter capture pin none := by
  cases role with
  | unused => rfl
  | output driven => rfl
  | input f e v c => exact absurd rfl (h f e v c)

/-- A line made INPUT from another role senses its pin and holds no candidate (R124, R127). -/
theorem State.setLine_of_other {u : State} {l : LineId} (h : ∀ f e v c, u.lines[l].role ≠ .input f e v c) (rest : Bool)
    (filter : Byte) (capture : CaptureEdges) :
    u.setLine l 2 rest filter capture = u.modifyLine l fun _ => ⟨rest, .input filter capture (u.pinLevels.getLsbD l) none⟩ :=
  congrArg (fun role => u.modifyLine l fun _ => ⟨rest, role⟩) (LineRole.toInput_of_other h ..)

/-- An input that stays INPUT keeps its sensed level and, with the same filter, its candidate (R127). -/
theorem State.setLine_of_input {u : State} {l : LineId} {before : Byte} {e : CaptureEdges} {sensed : Bool}
    {candidate : Option Stamp} (h : u.lines[l].role = .input before e sensed candidate) (rest : Bool) (filter : Byte)
    (capture : CaptureEdges) :
    u.setLine l 2 rest filter capture = u.modifyLine l fun _ => ⟨rest, .input filter capture sensed
      (if filter = before then candidate else if u.pinLevels.getLsbD l = sensed then none else some u.timeline)⟩ :=
  congrArg (fun role : LineRole => u.modifyLine l fun _ =>
    ⟨rest, role.toInput filter capture (u.pinLevels.getLsbD l) u.timeline⟩) h

/-- Acceptances of candidates leave a line that is not among theirs. -/
theorem State.acceptAll_line_of_notMem (ls : List LineId) (s : State) {m : LineId} (h : m ∉ ls) :
    (ls.foldl State.acceptEdge s).lines[m] = s.lines[m] := by
  induction ls generalizing s with
  | nil => rfl
  | cons l ls ih =>
    obtain ⟨hne, hnot⟩ := not_or.mp (List.mem_cons.not.mp h)
    rw [List.foldl_cons, ih _ hnot, State.acceptEdge_line, if_neg hne]

/-- Acceptances of several candidates, each once, do to each line what its own does. -/
theorem State.acceptAll_line_of_mem (ls : List LineId) (hn : ls.Nodup) (s : State) {m : LineId} (h : m ∈ ls) :
    (ls.foldl State.acceptEdge s).lines[m] = (s.acceptEdge m).lines[m] := by
  induction ls generalizing s with
  | nil => exact absurd h List.not_mem_nil
  | cons l ls ih =>
    obtain ⟨hl, hn⟩ := List.nodup_cons.mp hn
    rw [List.foldl_cons]
    rcases List.mem_cons.mp h with rfl | hmem
    · exact State.acceptAll_line_of_notMem ls _ hl
    · have hne : m ≠ l := fun heq => hl (heq ▸ hmem)
      rw [ih hn _ hmem, State.acceptEdge_line, State.acceptEdge_line s m, if_pos rfl, if_pos rfl, State.acceptEdge_line,
        if_neg hne]

/-- A sample that ends accepts a candidate of filter 0 (R123). -/
theorem State.endSample_line_of_unfiltered {s : State} {l : LineId} {rest sensed : Bool} {capture : CaptureEdges} {f : Stamp}
    (h : s.lines[l] = ⟨rest, .input 0 capture sensed (some f)⟩) :
    s.endSample.lines[l] = ⟨rest, .input 0 capture (!sensed) none⟩ := by
  have hunfiltered : s.unfiltered l = true := by simp [State.unfiltered, h]
  have hany : allLines.any s.unfiltered = true := List.any_eq_true.mpr ⟨l, List.mem_finRange l, hunfiltered⟩
  have hmem : l ∈ allLines.filter s.sampleAccepts := by
    refine List.mem_filter.mpr ⟨List.mem_finRange l, ?_⟩
    rw [State.sampleAccepts, hany, State.candidateDue_of_unfiltered hunfiltered, Bool.and_self, Bool.or_true]
  have hnodup : (allLines.filter s.sampleAccepts).Nodup := (List.nodup_finRange 16).filter _
  rw [State.endSample, State.acceptAll_line_of_mem _ hnodup _ hmem, State.acceptEdge_line, if_pos rfl]
  dsimp only
  rw [h]

@[simp] theorem level_beq_one (level : Bool) : ((BitVec.ofNat 8 level.toNat : Byte) == 1) = level := by
  cases level <;> rfl

section
variable {role filter capture : Byte} {rest : Bool} {u : State} {l : LineId} {c : CaptureEdges}

/-- A line that Configure Line leaves without a candidate of filter 0 is reported as it was set. -/
theorem answerConfigureLine_filtered {ln : Line} (h : LineArguments role (BitVec.ofNat 8 rest.toNat) filter capture)
    (hc : CaptureEdges.ofByte capture = some c) (hfree : u.LineFree l)
    (hset : u.setLine l role.toNat rest filter c = u.modifyLine l fun _ => ln)
    (hfiltered : ∀ capture sensed f, ln.role ≠ .input 0 capture sensed (some f)) :
    answerConfigureLine (BitVec.ofNat 8 l.val) role (BitVec.ofNat 8 rest.toNat) filter capture u =
      (u.modifyLine l (fun _ => ln), .say .ok (u8 l.val ++ u8 ln.role.code ++ u8 ln.level.toNat)) := by
  have hunfiltered : (u.modifyLine l fun _ => ln).unfiltered l = false := by
    rw [State.unfiltered_eq_false_iff, State.modifyLine_self]
    exact hfiltered
  rw [answerConfigureLine_accepted h hc hfree, level_beq_one, hset, State.acceptUnfiltered, hunfiltered]
  dsimp only
  rw [if_neg Bool.false_ne_true, State.modifyLine_self]

/-- A candidate of filter 0 that Configure Line takes is accepted before the reply (R123; log entry 30). -/
theorem answerConfigureLine_sampled {sensed : Bool} {candidate : Option Stamp}
    (h : LineArguments role (BitVec.ofNat 8 rest.toNat) filter capture) (hc : CaptureEdges.ofByte capture = some c)
    (hfree : u.LineFree l)
    (hset : u.setLine l role.toNat rest filter c = u.modifyLine l fun _ => ⟨rest, .input 0 c sensed candidate⟩)
    (htaken : candidate ≠ none) :
    answerConfigureLine (BitVec.ofNat 8 l.val) role (BitVec.ofNat 8 rest.toNat) filter capture u =
      ((u.modifyLine l fun _ => ⟨rest, .input 0 c sensed candidate⟩).endSample,
        .say .ok (u8 l.val ++ u8 2 ++ u8 (!sensed).toNat)) := by
  obtain ⟨f, rfl⟩ := Option.ne_none_iff_exists'.mp htaken
  have hline := State.modifyLine_self u l fun _ => ⟨rest, .input 0 c sensed (some f)⟩
  have hunfiltered : (u.modifyLine l fun _ => ⟨rest, .input 0 c sensed (some f)⟩).unfiltered l = true := by
    rw [State.unfiltered, hline]
    rfl
  rw [answerConfigureLine_accepted h hc hfree, level_beq_one, hset, State.acceptUnfiltered, hunfiltered]
  dsimp only
  rw [if_pos rfl, State.endSample_line_of_unfiltered hline]
  rfl

end

theorem lineArguments_other {role : Byte} (h : role.toNat ≤ 2) (rest : Bool) :
    LineArguments role (BitVec.ofNat 8 rest.toNat) 0 0 :=
  ⟨h, by cases rest <;> decide, by decide, fun _ => ⟨rfl, rfl⟩⟩

theorem lineArguments_input (rest : Bool) (filter : Byte) (capture : CaptureEdges) :
    LineArguments 2 (BitVec.ofNat 8 rest.toNat) filter (BitVec.ofNat 8 capture.code) :=
  ⟨by decide, by cases rest <;> decide, by cases capture <;> decide, fun h => absurd rfl h⟩

/-- Settles O43: the two refusals, then the record that each role gives the line, whose candidate of filter 0 is accepted. -/
theorem configureLineSetsTheRole : Obligations.ConfigureLineSetsTheRole := by
  unfold Obligations.ConfigureLineSetsTheRole
  intro s tag l _ hx
  obtain ⟨session, hb⟩ := s.restartSilence_eq
  have request (role rest filter capture : Byte) :
      IsRequest (.configureLine tag (BitVec.ofNat 8 l.val) role rest filter capture) 0x18 tag :=
    ⟨fun _ => rfl, _, rfl, rfl, rfl⟩
  simp only [hb]
  refine ⟨fun role rest filter capture hbad => ?_, fun role rest filter capture hgood hused => ?_,
    fun hfree rest filter capture => ⟨?_, ?_, fun hother => ?_, fun before e sensed candidate hrole => ⟨fun hnone => ?_,
      fun hzero htaken => ?_⟩⟩⟩
  · exact (request ..).reply hx hb (answerConfigureLine_badValue hbad)
  · exact (request ..).reply hx hb (answerConfigureLine_busy hgood hused)
  · exact (request ..).reply hx hb (answerConfigureLine_filtered (u := { s with session := session }) (ln := ⟨rest, .unused⟩)
      (lineArguments_other (by decide) rest) rfl hfree rfl nofun)
  · exact (request ..).reply hx hb (answerConfigureLine_filtered (u := { s with session := session })
      (ln := ⟨rest, .output rest⟩) (lineArguments_other (by decide) rest) rfl hfree rfl nofun)
  · exact (request ..).reply hx hb (answerConfigureLine_filtered (lineArguments_input rest filter capture)
      (CaptureEdges.ofByte_code capture) hfree
      (State.setLine_of_other (u := { s with session := session }) hother rest filter capture)
      fun _ _ _ heq => nomatch (LineRole.input.inj heq).2.2.2)
  · refine (request ..).reply hx hb (answerConfigureLine_filtered (lineArguments_input rest filter capture)
      (CaptureEdges.ofByte_code capture) hfree
      (State.setLine_of_input (u := { s with session := session }) hrole rest filter capture) ?_)
    intro _ _ f heq
    injection heq with hfilter _ _ htaken
    exact hnone.elim (fun hne => hne hfilter) fun hkept => nomatch hkept.symm.trans htaken
  · subst hzero
    exact (request ..).reply hx hb (answerConfigureLine_sampled (lineArguments_input rest 0 capture)
      (CaptureEdges.ofByte_code capture) hfree
      (State.setLine_of_input (u := { s with session := session }) hrole rest 0 capture) htaken)

end Sys2Proof.Machine
end

section
/-! Samples, acceptances and the delivery of an edge (R89, R120, R123 to R125, R135, R154). -/
namespace Sys2Proof.Machine

/-! ### The end of a sample -/

theorem State.sampleAccepts_of_filtered {s : State} (h : ∀ m, s.unfiltered m = false) :
    s.sampleAccepts = fun m : LineId => s.sample.accepted.getLsbD m := by
  have hany : allLines.any s.unfiltered = false := List.any_eq_false.mpr fun m _ => Bool.eq_false_iff.mp (h m)
  funext m
  rw [State.sampleAccepts, hany, Bool.false_and, Bool.or_false]

theorem State.sampleAccepts_of_unfiltered {s : State} {m : LineId} (h : s.unfiltered m = true) :
    s.sampleAccepts = fun m : LineId => s.sample.accepted.getLsbD m || s.candidateDue m := by
  have hany : allLines.any s.unfiltered = true := List.any_eq_true.mpr ⟨m, List.mem_finRange m, h⟩
  funext m
  rw [State.sampleAccepts, hany, Bool.true_and]

theorem State.candidateDue_input {s : State} {m : LineId} {filter : Byte} {capture : CaptureEdges} {sensed : Bool} {f : Stamp}
    (h : s.lines[m].role = .input filter capture sensed (some f)) :
    s.candidateDue m = decide (filter = 0 ∨ ¬0 < (f + filter.setWidth 48 - s.timeline).toInt) := by
  rw [State.candidateDue, h, Bool.decide_or, decide_not]
  rfl

theorem State.candidateDue_of_none {s : State} {m : LineId}
    (h : ∀ filter capture sensed f, s.lines[m].role ≠ .input filter capture sensed (some f)) : s.candidateDue m = false := by
  unfold State.candidateDue
  split
  · next filter capture sensed f hrole => exact absurd hrole (h filter capture sensed f)
  all_goals rfl

/-! ### The rows of a sample -/

theorem State.rowsGoOn_other (s : State) {c : Instr} (hlevel : ∀ m v, c ≠ .inputTransition m v)
    (haccept : ∀ m, c ≠ .edgeAcceptance m) (rest : List Instr) : s.rowsGoOn (c :: rest) = false := by
  cases c with
  | inputTransition m v => exact absurd rfl (hlevel m v)
  | edgeAcceptance m => exact absurd rfl (haccept m)
  | _ => rfl

theorem State.rowsGoOn_unscheduled {s : State} {l : LineId} (h : s.due (.edgeAcceptance l) = none) (rest : List Instr) :
    s.rowsGoOn (.edgeAcceptance l :: rest) = s.rowsGoOn rest := by
  rw [State.rowsGoOn, h]

theorem State.rowsGoOn_scheduled {s : State} {l : LineId} {d : Nat} (h : s.due (.edgeAcceptance l) = some d)
    (rest : List Instr) : s.rowsGoOn (.edgeAcceptance l :: rest) = decide (d = 0) := by
  rw [State.rowsGoOn, h]

/-- Rows that begin with neither a level nor an acceptance do not go on with a sample. -/
theorem State.rowsGoOn_eq_false {rows : List Instr} (s : State) (hlevel : ∀ m v rest, rows ≠ .inputTransition m v :: rest)
    (haccept : ∀ m rest, rows ≠ .edgeAcceptance m :: rest) : s.rowsGoOn rows = false := by
  cases rows with
  | nil => rfl
  | cons c rest =>
    exact s.rowsGoOn_other (fun m v h => hlevel m v rest (h ▸ rfl)) (fun m h => haccept m rest (h ▸ rfl)) rest

/-! ### A level on a pin -/

section
variable {s : State} {l : LineId} {level : Bool}

theorem State.sampledAgain_fresh (h : s.sample = Sample.fresh) : s.sampledAgain l level = false := by
  simp [State.sampledAgain, h, Sample.fresh]

/-- A level that is of the next sample ends the present one (R123). -/
theorem State.samplePin_of_sampledAgain (h : s.sampledAgain l level = true) :
    s.samplePin l level = s.endSample.samplePin l level := by
  rw [State.samplePin, State.samplePin, h, State.sampledAgain_fresh (s := s.endSample) s.endSample_sample]
  rfl

theorem State.samplePin_of_not_sampledAgain (h : s.sampledAgain l level = false) :
    s.samplePin l level = (s.showLevel l level).endSampleAtLastRow := by
  rw [State.samplePin, h]
  rfl

theorem State.sampledAgain_of_shown (h : s.sample.shown.getLsbD l = true) : s.sampledAgain l level = true := by
  rw [State.sampledAgain, h, Bool.true_or]

theorem State.sampledAgain_of_other (h : s.sample.shown.getLsbD l = false)
    (hother : ∀ f e v c, s.lines[l].role ≠ .input f e v c) : s.sampledAgain l level = false := by
  rw [State.sampledAgain, h, Bool.false_or]
  cases hrole : s.lines[l].role with
  | unused => exact Bool.and_false _
  | output driven => exact Bool.and_false _
  | input f e v c => exact absurd hrole (hother f e v c)

theorem State.sampledAgain_of_input (h : s.sample.shown.getLsbD l = false) {filter : Byte} {capture : CaptureEdges}
    {sensed : Bool} {held : Option Stamp} (hrole : s.lines[l].role = .input filter capture sensed held) :
    s.sampledAgain l level = (s.sample.accepted.getLsbD l && level == sensed) := by
  rw [State.sampledAgain, h, Bool.false_or, hrole]

/-- The level of a pin on a line whose role the sample makes `role`. -/
theorem State.showLevel_eq {role : LineRole} (h : s.lines[l].role.sampled level s.timeline = role) :
    s.showLevel l level = { s with
      pinLevels := if level then s.pinLevels ||| BitVec.twoPow 16 l else s.pinLevels &&& ~~~BitVec.twoPow 16 l
      sample := ⟨s.sample.shown ||| BitVec.twoPow 16 l, s.sample.accepted⟩
      lines := s.lines.set l { s.lines[l] with role := role } } := by
  subst h
  rfl

theorem LineRole.sampled_of_other {role : LineRole} (h : ∀ f e v c, role ≠ .input f e v c) (level : Bool) (now : Stamp) :
    role.sampled level now = role := by
  cases role with
  | unused => rfl
  | output driven => rfl
  | input f e v c => exact absurd rfl (h f e v c)

/-- On a line that is no input the level on the pin alone is kept (R120). -/
theorem State.showLevel_of_other (h : ∀ f e v c, s.lines[l].role ≠ .input f e v c) :
    s.showLevel l level = { s with
      pinLevels := if level then s.pinLevels ||| BitVec.twoPow 16 l else s.pinLevels &&& ~~~BitVec.twoPow 16 l
      sample := ⟨s.sample.shown ||| BitVec.twoPow 16 l, s.sample.accepted⟩ } := by
  have hlines : s.lines.set l { s.lines[l] with role := s.lines[l].role } = s.lines := Vector.set_getElem_self _
  rw [State.showLevel_eq (LineRole.sampled_of_other h level s.timeline), hlines]

/-- A level of an input line that the sample has not shown yet, and that no acceptance told before excludes: one that differs
from the sensed level keeps or takes a candidate, one that equals it drops the candidate (R123). -/
theorem exec_inputTransition_input (hshown : s.sample.shown.getLsbD l = false) {filter : Byte} {capture : CaptureEdges}
    {sensed : Bool} {held : Option Stamp} (hrole : s.lines[l].role = .input filter capture sensed held)
    (hsame : s.sample.accepted.getLsbD l = false ∨ level ≠ sensed) :
    exec (.inputTransition l level) s = .next (State.endSampleAtLastRow { s with
      pinLevels := if level then s.pinLevels ||| BitVec.twoPow 16 l else s.pinLevels &&& ~~~BitVec.twoPow 16 l
      sample := ⟨s.sample.shown ||| BitVec.twoPow 16 l, s.sample.accepted⟩
      lines := s.lines.set l { s.lines[l] with
        role := .input filter capture sensed (if level = sensed then none else some (held.getD s.timeline)) } }) := by
  have hagain : s.sampledAgain l level = false := by
    rw [State.sampledAgain_of_input hshown hrole]
    rcases hsame with haccepted | hne
    · rw [haccepted, Bool.false_and]
    · rw [beq_false_of_ne hne, Bool.and_false]
  refine congrArg Host.Outcome.next ((State.samplePin_of_not_sampledAgain hagain).trans ?_)
  rw [State.showLevel_eq (by rw [hrole, LineRole.sampled])]

/-- A row EDGE_ACCEPTANCE at its moment: the sample accepts the candidate, and ends unless the waiting rows go on with it. -/
theorem State.acceptInSample_of_dueAfter {d : Nat} (h : s.dueAfter (.edgeAcceptance l) d) :
    s.atDue (.edgeAcceptance l) (fun u => u.acceptInSample l) =
      let joined := (s.afterPeriods d).joinSample l
      if joined.rowsGoOn s.pending then joined else joined.endSample := by
  rw [State.atDue_of_dueAfter h, State.acceptInSample, State.endSampleAtLastRow]
  show (if ((s.afterPeriods d).joinSample l).rowsGoOn (s.afterPeriods d).pending then _ else _) = _
  rw [State.afterPeriods_pending]

end

/-! ### The delivery of an edge -/

/-- The trigger that a receiver is, if it is one: the journal is none (R125). -/
def Receiver.trigger? : Receiver → Option TriggerId
  | .journal => none
  | .trigger k => some k

theorem Receiver.trigger?_injective : Function.Injective Receiver.trigger? := by
  intro a b h
  cases a <;> cases b <;> cases h <;> rfl

theorem State.mem_receivers_journal (s : State) (l : LineId) (capture : CaptureEdges) (rising : Bool) :
    Receiver.journal ∈ s.receivers l capture rising ↔ capture.names rising = true := by
  simp [State.receivers]

theorem State.mem_receivers_trigger (s : State) (l : LineId) (capture : CaptureEdges) (rising : Bool) (k : TriggerId) :
    Receiver.trigger k ∈ s.receivers l capture rising ↔ s.holdsLine l k = true := by
  by_cases h : capture.names rising <;> simp [State.receivers, allTriggers, h]

theorem State.receivers_nodup (s : State) (l : LineId) (capture : CaptureEdges) (rising : Bool) :
    (s.receivers l capture rising).Nodup := by
  have htriggers : ((allTriggers.filter (s.holdsLine l)).map Receiver.trigger).Nodup :=
    ((List.nodup_finRange 4).filter _).map fun _ _ => Receiver.trigger.inj
  unfold State.receivers
  split
  · exact List.nodup_cons.mpr ⟨by simp, htriggers⟩
  · exact htriggers

/-- The sensed level of an input changes and its candidate is cleared (R123). -/
def State.withEdge (s : State) (l : LineId) (filter : Byte) (capture : CaptureEdges) (sensed : Bool) : State :=
  { s with
    lines := s.lines.set l { s.lines[l] with role := .input filter capture (!sensed) none }
    choices := s.choices + 1 }

/-- An accepted candidate's edge reaches its receivers, each once, in one order of them (R125, R154). -/
theorem State.acceptEdge_eq {s : State} {l : LineId} {filter : Byte} {capture : CaptureEdges} {sensed : Bool} {f : Stamp}
    (h : s.lines[l].role = .input filter capture sensed (some f)) :
    ∃ order : List Receiver, order.Perm (s.receivers l capture (!sensed)) ∧
      s.acceptEdge l = order.foldl (fun u r => u.deliver l (!sensed) f (f + filter.setWidth 48) r)
        (s.withEdge l filter capture sensed) := by
  refine ⟨freeOrder Config.receiverOrder s.choices (s.receivers l capture (!sensed)), freeOrder_perm _ _ _, ?_⟩
  rw [State.acceptEdge, h]
  rfl

/-- An edge of a line that no trigger holds reaches the journal alone, if the capture edges name its direction (R125). -/
theorem State.receivers_of_unheld {s : State} {l : LineId} (h : ∀ k, s.holdsLine l k ≠ true) (capture : CaptureEdges)
    (rising : Bool) : s.receivers l capture rising = if capture.names rising then [.journal] else [] := by
  have hholders : allTriggers.filter (s.holdsLine l) = [] := List.filter_eq_nil_iff.mpr fun k _ => h k
  rw [State.receivers, hholders]
  exact List.append_nil _

/-- An edge of a line that one trigger holds reaches that trigger, and the journal if the capture edges name its direction. -/
theorem State.receivers_of_single {s : State} {l : LineId} {k : TriggerId} (h : ∀ j, s.holdsLine l j = true ↔ j = k)
    (capture : CaptureEdges) (rising : Bool) :
    s.receivers l capture rising = if capture.names rising then [.journal, .trigger k] else [.trigger k] := by
  have hmem (j : TriggerId) : j ∈ allTriggers.filter (s.holdsLine l) ↔ j ∈ [k] := by
    rw [List.mem_filter, h, List.mem_singleton]
    exact and_iff_right (List.mem_finRange j)
  have hholders : allTriggers.filter (s.holdsLine l) = [k] := List.perm_singleton.mp
    ((List.perm_ext_iff_of_nodup ((List.nodup_finRange 4).filter _) (List.nodup_singleton k)).mpr hmem)
  rw [State.receivers, hholders]
  split <;> rfl

/-- Settles O44: the end of a sample, the rows that go on with it, a level on a pin, an acceptance in its sample, and the
receivers of an accepted edge in their order. -/
theorem samplesMakeEdges : Obligations.SamplesMakeEdges := by
  unfold Obligations.SamplesMakeEdges
  refine ⟨fun s => ⟨fun hfiltered => ?_, fun ⟨m, hm⟩ => ?_, fun m => ?_⟩,
    fun s l level rest => ⟨rfl, rfl, fun h => State.rowsGoOn_unscheduled h rest, fun d h => State.rowsGoOn_scheduled h rest,
      fun c hlevel haccept => s.rowsGoOn_other hlevel haccept rest⟩,
    fun s l level => ⟨fun hshown => ?_, fun hshown => ⟨fun hother => ?_, fun filter capture sensed held hrole =>
      ⟨fun hne hnone => ?_, fun f hne hsome => ?_, fun heq hacc => ?_, fun heq hacc => ?_⟩⟩⟩,
    fun s l d hdue => ?_, fun s l d hdue hsample hfiltered hlevel haccept => ?_,
    fun s l filter capture sensed f hrole => ?_⟩
  · have hnone (m : LineId) : s.unfiltered m = false := by
      refine (s.unfiltered_eq_false_iff m).mpr fun capture sensed f hrole => ?_
      have h := hfiltered m
      dsimp only at h
      rw [hrole] at h
      exact of_decide_eq_false h rfl
    rw [State.endSample, State.sampleAccepts_of_filtered hnone]
    rfl
  · have hunfiltered : s.unfiltered m = true := by
      dsimp only at hm
      split at hm
      · next hrole =>
        rw [State.unfiltered, hrole]
        exact hm
      · cases hm
    rw [State.endSample, State.sampleAccepts_of_unfiltered hunfiltered]
    refine congrArg (fun accepts : LineId → Bool => (allLines.filter accepts).foldl State.acceptEdge _) (funext fun m => ?_)
    refine congrArg (s.sample.accepted.getLsbD m || ·) ?_
    dsimp only
    split
    · next hrole => exact State.candidateDue_input hrole
    · next hother => exact State.candidateDue_of_none hother
  · exact (State.unfiltered_eq_false_iff _ m).mp (s.unfiltered_endSample m)
  · exact congrArg Host.Outcome.next (State.samplePin_of_sampledAgain (State.sampledAgain_of_shown hshown))
  · have hagain : s.sampledAgain l level = false := State.sampledAgain_of_other hshown hother
    refine congrArg Host.Outcome.next ((State.samplePin_of_not_sampledAgain hagain).trans ?_)
    rw [State.showLevel_of_other hother]
    rfl
  · refine (exec_inputTransition_input hshown hrole (.inr hne)).trans ?_
    rw [if_neg hne, hnone]
    rfl
  · refine (exec_inputTransition_input hshown hrole (.inr hne)).trans ?_
    rw [if_neg hne, hsome]
    rfl
  · refine (exec_inputTransition_input hshown hrole (.inl hacc)).trans ?_
    rw [if_pos heq]
    rfl
  · refine congrArg Host.Outcome.next (State.samplePin_of_sampledAgain ?_)
    rw [State.sampledAgain_of_input hshown hrole, hacc, heq, beq_self_eq_true, Bool.and_self]
  · exact congrArg Host.Outcome.next (State.acceptInSample_of_dueAfter hdue)
  · refine congrArg Host.Outcome.next ((State.acceptInSample_of_dueAfter hdue).trans ?_)
    have hunfiltered (m : LineId) : (s.afterPeriods d).unfiltered m = false := by
      rw [State.unfiltered_eq_false_iff, State.afterPeriods_lines]
      exact hfiltered m
    dsimp only
    rw [State.rowsGoOn_eq_false _ hlevel haccept, if_neg Bool.false_ne_true]
    exact State.endSample_joinSample l ((s.afterPeriods_sample d).trans hsample) hunfiltered
  · obtain ⟨order, hperm, hfold⟩ := State.acceptEdge_eq hrole
    have hholds := s.holdsLine_eq_true_iff l
    refine ⟨fun hnone => ?_, ⟨order.map Receiver.trigger?, ?_, fun k => ?_, ?_, ?_⟩, fun k hk honly => ?_⟩
    · rw [State.receivers_of_unheld fun k h => hnone k ((hholds k).mp h)] at hperm
      refine ⟨fun hdir => ?_, fun hdir => ?_⟩ <;> rw [hdir] at hperm
      · obtain rfl := List.perm_nil.mp hperm
        exact hfold
      · obtain rfl := List.perm_singleton.mp hperm
        exact hfold
    · exact (hperm.nodup_iff.mpr (s.receivers_nodup ..)).map Receiver.trigger?_injective
    · refine (List.mem_map_of_injective (a := Receiver.trigger k) Receiver.trigger?_injective).trans ?_
      rw [hperm.mem_iff, State.mem_receivers_trigger, hholds]
    · refine (List.mem_map_of_injective (a := Receiver.journal) Receiver.trigger?_injective).trans ?_
      rw [hperm.mem_iff, State.mem_receivers_journal]
    · rw [List.foldl_map, hfold]
      refine congrArg (fun deliver => order.foldl deliver _) (funext fun u => funext fun r => ?_)
      cases r <;> rfl
    · rw [State.receivers_of_single (k := k) fun j => (hholds j).trans ⟨honly j, fun h => h ▸ hk⟩] at hperm
      refine ⟨fun hdir => ?_, fun hdir => ?_⟩ <;> rw [hdir] at hperm
      · obtain rfl := List.perm_singleton.mp hperm
        exact hfold
      · rcases List.perm_pair.mp hperm with rfl | rfl
        · exact .inl hfold
        · exact .inr hfold

end Sys2Proof.Machine
end

section
/-! What leaves the capture journal as it is: playback, the triggers, the reference unit and the requests, but for Read Journal, Set
Journal, Open and Close Session, and Configure Line, which may accept an edge. -/
namespace Sys2Proof.Machine

/-- A fold of operations that leave the journal as it is leaves it as it is. -/
theorem State.foldl_journal {α : Type} {f : State → α → State} (hf : ∀ s a, (f s a).journal = s.journal) (l : List α)
    (s : State) : (l.foldl f s).journal = s.journal :=
  foldl_keeps (P := fun u => u.journal = s.journal) (fun u a hu => (hf u a).trans hu) l s rfl

/-! ### Pages, steps and gates -/

@[simp] theorem State.leavePages_journal (s : State) (ps : List PageId) : (s.leavePages ps).journal = s.journal :=
  State.foldl_journal (fun s p => s.modifyPage_journal p Page.leave) ps s

@[simp] theorem State.flush_journal (s : State) (t : TrackId) : (s.flush t).journal = s.journal := by simp [State.flush]

@[simp] theorem State.gateFault_journal (s : State) (t : TrackId) (p : Playback) (k : TriggerId) (report : Bool)
    (stall : Stamp) : (s.gateFault t p k report stall).journal = s.journal := by simp [State.gateFault]

@[simp] theorem State.reachGate_journal (s : State) (t : TrackId) (p : Playback) (index : Nat) (offset : Word32)
    (k : TriggerId) (timeout : Word32) (action : GateAction) (report : Bool) :
    (s.reachGate t p index offset k timeout action report).journal = s.journal := by
  unfold State.reachGate
  split
  · simp
  · split <;> simp
  all_goals simp

@[simp] theorem State.takeStep_journal (s : State) (t : TrackId) (p : Playback) (st : Step) :
    (s.takeStep t p st).journal = s.journal := by cases st <;> simp [State.takeStep]

@[simp] theorem State.takeSteps_journal (t : TrackId) (pageTime : Nat) (sts : List Step) (s : State) :
    (State.takeSteps t pageTime sts s).journal = s.journal := by
  induction sts generalizing s with
  | nil => rfl
  | cons st rest ih =>
    unfold State.takeSteps
    split
    · split
      · rw [ih, State.takeStep_journal]
      · rfl
    · rfl

@[simp] theorem State.playFrom_journal (s : State) (t : TrackId) (pageTime : Nat) :
    (s.playFrom t pageTime).journal = s.journal := by
  unfold State.playFrom
  split <;> simp

@[simp] theorem State.endPulses_journal (s : State) (ends : List PulseEnd) : (s.endPulses ends).journal = s.journal :=
  State.foldl_journal (fun s (e : PulseEnd) => s.driveAll_journal e.lines e.level) ends s

@[simp] theorem State.resumePage_journal (s : State) (t : TrackId) (p : Playback) (g : GateWait) (o : GateOutcome) :
    (s.resumePage t p g o).journal = s.journal := by simp [State.resumePage]

@[simp] theorem State.endGate_journal (s : State) (t : TrackId) : (s.endGate t).journal = s.journal := by
  unfold State.endGate
  split
  · split <;> simp
  · rfl

@[simp] theorem State.resumeReleased_journal (s : State) (t : TrackId) : (s.resumeReleased t).journal = s.journal := by
  unfold State.resumeReleased
  split <;> simp

/-! ### Run ends, starts and aborts -/

@[simp] theorem State.underrun_journal (s : State) (t : TrackId) (p : Playback) : (s.underrun t p).journal = s.journal := by
  unfold State.underrun
  split <;> simp

@[simp] theorem State.runEnd_journal (s : State) (t : TrackId) (p : Playback) : (s.runEnd t p).journal = s.journal := by
  unfold State.runEnd
  dsimp only
  split
  · simp
  split
  · simp
  split <;> simp

@[simp] theorem State.boundary_journal (s : State) (t : TrackId) (p : Playback) : (s.boundary t p).journal = s.journal := by
  unfold State.boundary
  dsimp only
  split <;> simp

@[simp] theorem State.trackActions_journal (s : State) (t : TrackId) : (s.trackActions t).journal = s.journal := by
  unfold State.trackActions
  split
  · dsimp only
    split <;> simp [State.pulsesDue]
  · rfl

@[simp] theorem State.startEffect_journal (s : State) (t : TrackId) : (s.startEffect t).journal = s.journal := by
  unfold State.startEffect
  split <;> simp

@[simp] theorem State.releaseEffect_journal (s : State) (t : TrackId) : (s.releaseEffect t).journal = s.journal := by
  unfold State.releaseEffect
  split <;> simp

@[simp] theorem State.abortTrack_journal (s : State) (t : TrackId) : (s.abortTrack t).journal = s.journal := by
  unfold State.abortTrack State.abortPage
  split <;> simp

@[simp] theorem State.afterFlush_journal (s : State) (t : TrackId) : (s.afterFlush t).journal = s.journal := by
  unfold State.afterFlush
  split <;> simp

/-! ### Triggers and the reference unit -/

@[simp] theorem State.fire_journal (s : State) (k : TriggerId) (g : TriggerConfig) (f c : Stamp) :
    (s.fire k g f c).journal = s.journal := by
  unfold State.fire
  dsimp only
  split
  · simp
  · rw [State.consume_journal, State.foldl_journal fun s t => s.releaseTrack_journal f c t]
    simp

@[simp] theorem State.edgeAtTrigger_journal (s : State) (rising : Bool) (f c : Stamp) (k : TriggerId) :
    (s.edgeAtTrigger rising f c k).journal = s.journal := by
  unfold State.edgeAtTrigger
  split
  · rfl
  split
  · rfl
  all_goals split <;> simp

@[simp] theorem State.arm_journal (s : State) (k : TriggerId) (c : TriggerConfig) : (s.arm k c).journal = s.journal := by
  unfold State.arm
  split <;> simp

@[simp] theorem State.dismiss_journal (s : State) (k : TriggerId) (t : TrackId) : (s.dismiss k t).journal = s.journal := by
  unfold State.dismiss
  split <;> simp

@[simp] theorem State.disarm_journal (s : State) (k : TriggerId) : (s.disarm k).journal = s.journal :=
  State.foldl_journal (fun s t => s.dismiss_journal k t) _ _

@[simp] theorem State.takeFiring_journal (k : TriggerId) (s : State) : (s.takeFiring k).journal = s.journal := by
  unfold State.takeFiring
  split <;> simp

@[simp] theorem State.discardFiring_journal (s : State) (k : TriggerId) : (s.discardFiring k).journal = s.journal := by
  unfold State.discardFiring
  split <;> simp

@[simp] theorem State.lossOfLock_journal (s : State) : s.lossOfLock.journal = s.journal := by
  unfold State.lossOfLock
  dsimp only
  rw [State.foldl_journal fun s t => s.cancelStart_journal t .reference, State.queueEvent_journal]

@[simp] theorem State.checkPulse_journal (s : State) : s.checkPulse.journal = s.journal := by
  unfold State.checkPulse
  dsimp only
  split
  · rfl
  split
  all_goals split <;> simp

@[simp] theorem State.pulse_journal (s : State) : s.pulse.journal = s.journal := by
  unfold State.pulse State.releaseEpoch
  dsimp only
  split <;> simp

@[simp] theorem State.missPulse_journal (s : State) : s.missPulse.journal = s.journal := by
  unfold State.missPulse
  dsimp only
  split <;> simp

/-! ### Events and sessions -/

@[simp] theorem State.removeEvents_journal (s : State) (n : Nat) : (s.removeEvents n).journal = s.journal := by
  unfold State.removeEvents
  dsimp only
  split <;> simp

@[simp] theorem State.answerDeferred_journal (s : State) : s.answerDeferred.journal = s.journal :=
  State.foldl_journal State.composeAborted_journal _ { s with choices := s.choices + 1 }

theorem State.endSession_journal (s : State) : s.endSession.journal = { s.journal with waiting := none } := by
  rw [State.endSession_frame]

/-! ### The requests -/

theorem answerAckEvents_journal (seq : Word16) (s : State) : (answerAckEvents seq s).1.journal = s.journal := by
  unfold answerAckEvents
  split
  · split <;> simp
  all_goals rfl

theorem answerReplayEvents_journal (seq : Word16) (s : State) : (answerReplayEvents seq s).1.journal = s.journal := by
  unfold answerReplayEvents
  split <;> rfl

theorem answerSetTick_journal (divider : Byte) (s : State) : (answerSetTick divider s).1.journal = s.journal := by
  unfold answerSetTick
  iterate 4
    split
    · rfl
  dsimp only
  split <;> rfl

theorem answerSetReference_journal (interval : Word32) (window : Word16) (s : State) :
    (answerSetReference interval window s).1.journal = s.journal := by
  unfold answerSetReference
  iterate 2
    split
    · rfl
  rfl

theorem answerOpenPage_journal (period : Word32) (repeats : Word16) (flags reserved : Byte) (s : State) :
    (answerOpenPage period repeats flags reserved s).1.journal = s.journal := by
  unfold answerOpenPage
  split
  · rfl
  split <;> rfl

theorem answerAppendSteps_journal (page reserved : Byte) (records : List StepRecord) (s : State) :
    (answerAppendSteps page reserved records s).1.journal = s.journal := by
  unfold answerAppendSteps
  repeat' split
  all_goals rfl

theorem answerSealPage_journal (page : Byte) (s : State) : (answerSealPage page s).1.journal = s.journal := by
  unfold answerSealPage
  split
  · rfl
  dsimp only
  split <;> rfl

theorem answerDiscardPage_journal (page : Byte) (s : State) : (answerDiscardPage page s).1.journal = s.journal := by
  unfold answerDiscardPage
  split
  · rfl
  split <;> rfl

theorem answerReadPage_journal (page first : Byte) (s : State) : (answerReadPage page first s).1.journal = s.journal := by
  unfold answerReadPage
  split
  · rfl
  split <;> rfl

theorem State.enableTrack_journal (s : State) (t : TrackId) (group rest : LineSet) (policy : Policy)
    (started retired : Bool) : (s.enableTrack t group rest policy started retired).journal = s.journal := by
  unfold State.enableTrack
  split <;> simp

theorem answerConfigureTrack_journal (track enable policy options : Byte) (group rest : LineSet) (s : State) :
    (answerConfigureTrack track enable policy options group rest s).1.journal = s.journal := by
  unfold answerConfigureTrack
  split
  · rfl
  dsimp only
  split
  · split <;> rfl
  split
  · rfl
  iterate 3
    split
    · rfl
  exact State.enableTrack_journal ..

theorem answerQueuePage_journal (page track : Byte) (s : State) : (answerQueuePage page track s).1.journal = s.journal := by
  unfold answerQueuePage
  repeat' split
  all_goals rfl

theorem answerFlushQueue_journal (track : Byte) (s : State) : (answerFlushQueue track s).1.journal = s.journal := by
  unfold answerFlushQueue
  split <;> simp

/-- A start beside whose arming the mode leaves the journal as it is. -/
theorem startTrack_journal (track options : Byte) (form : Except Status StartForm) {effect : State → State} {s : State}
    (heffect : (effect s).journal = s.journal) : (startTrack track options form effect s).1.journal = s.journal := by
  unfold startTrack
  split
  · rfl
  split
  · split
    · rfl
    split
    · rfl
    split
    · rfl
    · exact heffect
  all_goals rfl

theorem answerStartAt_journal (track options trigger : Byte) (time : Stamp) (offset : Word32) (s : State) :
    (answerStartAt track options trigger time offset s).1.journal = s.journal := by
  unfold answerStartAt
  split
  · rfl
  · exact startTrack_journal track options _ rfl

theorem answerStartAfter_journal (track options trigger : Byte) (time : Stamp) (offset : Word32) (s : State) :
    (answerStartAfter track options trigger time offset s).1.journal = s.journal := by
  unfold answerStartAfter
  split
  · rfl
  · exact startTrack_journal track options _ rfl

theorem answerStartOnTrigger_journal (track options trigger : Byte) (time : Stamp) (offset : Word32) (s : State) :
    (answerStartOnTrigger track options trigger time offset s).1.journal = s.journal := by
  unfold answerStartOnTrigger
  split
  · rfl
  split
  · rfl
  · exact startTrack_journal track options _ (State.takeFiring_journal _ s)

theorem answerStartAtEpoch_journal (track options trigger : Byte) (time : Stamp) (offset : Word32) (s : State) :
    (answerStartAtEpoch track options trigger time offset s).1.journal = s.journal := by
  unfold answerStartAtEpoch
  split
  · rfl
  · exact startTrack_journal track options _ rfl

theorem answerStopAbort_journal (track : Byte) (s : State) : (answerStopAbort track s).1.journal = s.journal := by
  unfold answerStopAbort State.stopAbort
  split
  · rfl
  split <;> simp

theorem answerStopEnd_journal (track : Byte) (s : State) : (answerStopEnd track s).1.journal = s.journal := by
  unfold answerStopEnd State.stopAtOnce
  split
  · rfl
  split
  iterate 2
    · split
      · rfl
      split <;> rfl
  all_goals simp

theorem answerHoldTrack_journal (track : Byte) (s : State) : (answerHoldTrack track s).1.journal = s.journal := by
  unfold answerHoldTrack
  repeat' split
  all_goals rfl

theorem answerReleaseTrack_journal (track : Byte) (s : State) : (answerReleaseTrack track s).1.journal = s.journal := by
  unfold answerReleaseTrack
  repeat' split
  all_goals rfl

theorem answerReadTrack_journal (track : Byte) (s : State) : (answerReadTrack track s).1.journal = s.journal := by
  unfold answerReadTrack
  split <;> rfl

theorem answerArmTrigger_journal (trigger line sense count flags : Byte) (s : State) :
    (answerArmTrigger trigger line sense count flags s).1.journal = s.journal := by
  unfold answerArmTrigger
  split
  · split
    · rfl
    split
    iterate 3 · rfl
    split <;> simp
  · rfl

theorem answerDisarmTrigger_journal (trigger : Byte) (s : State) :
    (answerDisarmTrigger trigger s).1.journal = s.journal := by
  unfold answerDisarmTrigger
  split
  · rfl
  split <;> simp

theorem answerReadTrigger_journal (trigger : Byte) (s : State) : (answerReadTrigger trigger s).1.journal = s.journal := by
  unfold answerReadTrigger
  split <;> rfl

end Sys2Proof.Machine
end

section
/-! The capture journal: what a captured edge and an acknowledgement make of it, and its account of sequence numbers. -/
namespace Sys2Proof.Machine

/-! ### A captured edge -/

/-- The record of an edge that the journal captures (R134). -/
def Journal.edgeRecord (j : Journal) (l : LineId) (rising : Bool) (f : Stamp) : Record :=
  ⟨j.seq, 1, if rising then .rise else .fall, l, f⟩

/-- The journal with a captured edge recorded: it takes the next sequence number (R134, R136). -/
def Journal.recorded (j : Journal) (l : LineId) (rising : Bool) (f : Stamp) : Journal :=
  { j with records := j.records ++ [j.edgeRecord l rising f], seq := j.seq + 1 }

theorem State.recordEdge_room {s : State} (h : s.journal.records.length < Config.journalRecords) (l : LineId) (rising : Bool)
    (f : Stamp) :
    s.recordEdge l rising f = { s with journal := s.journal.recorded l rising f }.noticeJournal.completeRead := if_pos h

theorem State.recordEdge_newGap {s : State} (h : Config.journalRecords ≤ s.journal.records.length) (hg : s.journal.gap = none)
    (l : LineId) (rising : Bool) (f : Stamp) :
    s.recordEdge l rising f =
      { s with journal := { s.journal with gap := some ⟨1, s.journal.seq, f⟩, seq := s.journal.seq + 1 } } := by
  rw [State.recordEdge]
  dsimp only
  rw [if_neg (Nat.not_lt.mpr h), hg]

theorem State.recordEdge_gap {s : State} (h : Config.journalRecords ≤ s.journal.records.length) {g : Gap}
    (hg : s.journal.gap = some g) (l : LineId) (rising : Bool) (f : Stamp) :
    s.recordEdge l rising f =
      if g.count = 0xFFFFFFFF then s
      else { s with
        journal := { s.journal with gap := some { g with count := g.count + 1 }, seq := s.journal.seq + 1 } } := by
  rw [State.recordEdge]
  dsimp only
  rw [if_neg (Nat.not_lt.mpr h), hg]

/-! ### The notice and the waiting read -/

/-- Whether the records held raise Journal Notice (R144). -/
def State.NoticeDue (s : State) : Prop :=
  s.journal.watermark ≠ 0 ∧ s.journal.watermark ≤ s.journal.records.length ∧ s.journal.notice = false ∧ s.isOpen = true

theorem State.noticeJournal_due {s : State} (h : s.NoticeDue) :
    s.noticeJournal = { s with
      journal := { s.journal with notice := true }
      events := s.events.store (.journalNotice s.journal.records.length) } := by
  obtain ⟨hmark, hheld, hclear, hopen⟩ := h
  rw [State.noticeJournal, if_pos ⟨hmark, hheld, by rw [hclear]; rfl, hopen⟩]
  exact State.queueEvent_open (s := { s with journal := { s.journal with notice := true } }) hopen _

theorem State.noticeJournal_not_due {s : State} (h : ¬ s.NoticeDue) : s.noticeJournal = s :=
  if_neg fun ⟨hmark, hheld, hclear, hopen⟩ => h ⟨hmark, hheld, by simpa using hclear, hopen⟩

/-- The examination against the watermark sets the notice flag alone of the journal. -/
theorem State.noticeJournal_journal (s : State) :
    s.noticeJournal.journal = { s.journal with notice := s.noticeJournal.journal.notice } := by
  by_cases h : s.NoticeDue
  · rw [State.noticeJournal_due h]
  · rw [State.noticeJournal_not_due h]

/-- Whether a read waits is of no matter to the notice (R144). -/
theorem State.noticeJournal_withWaiting (s : State) (waiting : Option WaitingRead) :
    State.noticeJournal { s with journal := { s.journal with waiting := waiting } } =
      { s.noticeJournal with journal := { s.noticeJournal.journal with waiting := waiting } } := by
  by_cases h : s.NoticeDue
  · rw [State.noticeJournal_due h]
    exact State.noticeJournal_due (s := { s with journal := { s.journal with waiting := waiting } }) h
  · rw [State.noticeJournal_not_due h]
    exact State.noticeJournal_not_due (s := { s with journal := { s.journal with waiting := waiting } }) h

theorem State.completeRead_none {s : State} (h : s.journal.waiting = none) : s.completeRead = s := by
  rw [State.completeRead, h]

theorem State.completeRead_some {s : State} {w : WaitingRead} (h : s.journal.waiting = some w) :
    s.completeRead = State.compose { s with journal := { s.journal with waiting := none } } .readJournal .ok
      (s.journal.readFields w.maximum) := by
  rw [State.completeRead, h]

/-- A completed read leaves the journal with no waiting read. -/
theorem State.completeRead_journal (s : State) : s.completeRead.journal = { s.journal with waiting := none } := by
  cases h : s.journal.waiting with
  | none => rw [State.completeRead_none h, ← h]
  | some w => rw [State.completeRead_some h, State.compose_journal]

theorem State.expireRead_none {s : State} (h : s.journal.waiting = none) : s.expireRead = s := by
  rw [State.expireRead, h]

theorem State.expireRead_some {s : State} {w : WaitingRead} (h : s.journal.waiting = some w) :
    s.expireRead = State.compose { s with journal := { s.journal with waiting := none } } .readJournal .ok (zeros 7) := by
  rw [State.expireRead, h]

/-- An expired read leaves the journal with no waiting read. -/
theorem State.expireRead_journal (s : State) : s.expireRead.journal = { s.journal with waiting := none } := by
  cases h : s.journal.waiting with
  | none => rw [State.expireRead_none h, ← h]
  | some w => rw [State.expireRead_some h, State.compose_journal]

/-! ### Linked records -/

/-- Records follow one another without a gap in their sequence numbers, and the number after the last is `next` (R133). -/
structure Linked (records : List Record) (next : Word32) : Prop where
  chain : ∀ (i : Nat) (r q : Record), records[i]? = some r → records[i + 1]? = some q → r.seq + r.count = q.seq
  newest : ∀ r : Record, records.getLast? = some r → r.seq + r.count = next

theorem Linked.drop {records : List Record} {next : Word32} (h : Linked records next) (a : Nat) :
    Linked (records.drop a) next where
  chain i r q hr hq := by
    rw [List.getElem?_drop] at hr hq
    exact h.chain (a + i) r q hr hq
  newest r hr := by
    rw [List.getLast?_drop] at hr
    split at hr
    · cases hr
    · exact h.newest r hr

theorem Linked.append {records : List Record} {r : Record} (h : Linked records r.seq) :
    Linked (records ++ [r]) (r.seq + r.count) where
  chain i x y hx hy := by
    have hi : i < records.length := by simpa using (List.getElem?_eq_some_iff.mp hy).1
    rw [List.getElem?_append_left hi] at hx
    by_cases hlast : i + 1 < records.length
    · rw [List.getElem?_append_left hlast] at hy
      exact h.chain i x y hx hy
    · have hend : i + 1 = records.length := by omega
      rw [hend, List.getElem?_concat_length] at hy
      obtain rfl := Option.some.inj hy
      refine h.newest x ?_
      rw [List.getLast?_eq_getElem?, ← hend]
      exact hx
  newest x hx := by
    rw [List.getLast?_concat] at hx
    rw [Option.some.inj hx]

/-! ### The account of sequence numbers -/

namespace Journal.Accounts

variable {j : Journal} (h : j.Accounts)
include h

theorem linked : Linked j.records ((j.gap.map Gap.firstSeq).getD j.seq) := ⟨h.chain, h.newest⟩

/-- The watermark, the notice flag and the waiting read are of no matter to the account. -/
theorem congr {j' : Journal} (hr : j'.records = j.records) (hs : j'.seq = j.seq) (hg : j'.gap = j.gap) : j'.Accounts where
  capacity := hr ▸ h.capacity
  chain := hr ▸ h.chain
  newest := by rw [hr, hs, hg]; exact h.newest
  gapEnds := by rw [hs, hg]; exact h.gapEnds
  gapFull := by rw [hr, hg]; exact h.gapFull

/-- No gap is pending while there is room (R133). -/
theorem gap_none (hroom : j.records.length < Config.journalRecords) : j.gap = none := by
  by_contra hg
  exact hroom.ne (h.gapFull (Option.isSome_iff_ne_none.mpr hg))

theorem recorded (hroom : j.records.length < Config.journalRecords) (l : LineId) (rising : Bool) (f : Stamp) :
    (j.recorded l rising f).Accounts := by
  have hgap := h.gap_none hroom
  have hlinked : Linked j.records (j.edgeRecord l rising f).seq := by
    have hlinked := h.linked
    rwa [hgap] at hlinked
  have hgap' : (j.recorded l rising f).gap = none := hgap
  have hnext : ((j.recorded l rising f).gap.map Gap.firstSeq).getD (j.recorded l rising f).seq = j.seq + 1 := by
    rw [hgap']; rfl
  exact
    { capacity := by rw [Journal.recorded, List.length_append]; exact hroom
      chain := hlinked.append.chain
      newest := by rw [hnext]; exact hlinked.append.newest
      gapEnds := by rw [hgap']; nofun
      gapFull := by rw [hgap']; nofun }

/-- An edge dropped on a full journal begins a gap at the next sequence number (R136). -/
theorem newGap (hfull : Config.journalRecords ≤ j.records.length) (hgap : j.gap = none) (f : Stamp) :
    Journal.Accounts { j with gap := some ⟨1, j.seq, f⟩, seq := j.seq + 1 } where
  capacity := h.capacity
  chain := h.chain
  newest := by simpa [hgap] using h.newest
  gapEnds g hg := by obtain rfl := Option.some.inj hg; rfl
  gapFull _ := h.capacity.antisymm hfull

/-- A further dropped edge extends the pending gap by its sequence number (R136). -/
theorem extendGap {g : Gap} (hgap : j.gap = some g) :
    Journal.Accounts { j with gap := some { g with count := g.count + 1 }, seq := j.seq + 1 } where
  capacity := h.capacity
  chain := h.chain
  newest := by simpa [hgap] using h.newest
  gapEnds g' hg' := by
    obtain rfl := Option.some.inj hg'
    rw [← h.gapEnds g hgap]
    exact (BitVec.add_assoc ..).symm
  gapFull _ := h.gapFull (by rw [hgap]; rfl)

/-- An acknowledgement drops the oldest records, and a pending gap becomes the newest (R137, R139). -/
theorem acknowledge (a : Nat) : (j.acknowledge a).Accounts := by
  have hcapacity := j.acknowledge_records_le a h.capacity
  unfold Journal.acknowledge at hcapacity ⊢
  split
  · rename_i g hgap
    split
    · exact h
    · rename_i ha
      have hlinked : Linked j.records g.firstSeq := by simpa [hgap] using h.linked
      have happended := (hlinked.drop a).append (r := ⟨g.firstSeq, g.count, .gap, 0, g.firstStamp⟩)
      rw [hgap] at hcapacity
      dsimp only at hcapacity
      rw [if_neg ha] at hcapacity
      exact
        { capacity := hcapacity
          chain := happended.chain
          newest := fun r hr => (happended.newest r hr).trans (h.gapEnds g hgap)
          gapEnds := nofun
          gapFull := nofun }
  · rename_i hgap
    have hdropped := h.linked.drop a
    rw [hgap] at hcapacity
    exact
      { capacity := hcapacity
        chain := hdropped.chain
        newest := hdropped.newest
        gapEnds := h.gapEnds
        gapFull := by rw [hgap]; nofun }

end Journal.Accounts
end Sys2Proof.Machine
end

section
/-! The journal's account of sequence numbers is kept by every step (R133). -/
namespace Sys2Proof.Machine

/-- The journal of a state accounts for every sequence number (R133). -/
def State.Accounted (s : State) : Prop := s.journal.Accounts

namespace State.Accounted

variable {s : State} (h : s.Accounted)
include h

/-- What leaves the journal as it is keeps its account. -/
theorem congr {s' : State} (hj : s'.journal = s.journal) : s'.Accounted := by
  rw [State.Accounted, hj]
  exact h

/-- What changes the journal in its watermark, notice flag or waiting read alone keeps its account. -/
theorem marks {s' : State} {watermark : Nat} {notice : Bool} {waiting : Option WaitingRead}
    (hj : s'.journal = { s.journal with watermark := watermark, notice := notice, waiting := waiting }) : s'.Accounted := by
  rw [State.Accounted, hj]
  exact Journal.Accounts.congr h rfl rfl rfl

/-! ### Edges and reads -/

theorem recordEdge (l : LineId) (rising : Bool) (f : Stamp) : (s.recordEdge l rising f).Accounted := by
  by_cases hroom : s.journal.records.length < Config.journalRecords
  · have hrecorded : State.Accounted { s with journal := s.journal.recorded l rising f } :=
      Journal.Accounts.recorded h hroom l rising f
    rw [State.recordEdge_room hroom]
    exact (hrecorded.marks (State.noticeJournal_journal _)).marks (State.completeRead_journal _)
  · have hfull := Nat.le_of_not_lt hroom
    cases hgap : s.journal.gap with
    | none =>
      rw [State.recordEdge_newGap hfull hgap]
      exact Journal.Accounts.newGap h hfull hgap f
    | some g =>
      rw [State.recordEdge_gap hfull hgap]
      split
      · exact h
      · exact Journal.Accounts.extendGap h hgap

theorem acceptEdge (l : LineId) : (s.acceptEdge l).Accounted := by
  unfold State.acceptEdge
  split
  · refine foldl_keeps (P := State.Accounted) (fun s r h => ?_) _ _ (h.congr rfl)
    cases r with
    | journal => exact h.recordEdge _ _ _
    | trigger k => exact h.congr (State.edgeAtTrigger_journal s _ _ _ k)
  · exact h

theorem acceptUnfiltered (l : LineId) : (s.acceptUnfiltered l).Accounted := by
  unfold State.acceptUnfiltered
  split
  · exact State.endSample_keeps (fun _ h => h.congr rfl) (fun _ l h => h.acceptEdge l) h
  · exact h

theorem readJournal (ack : Word16) (maximum reserved : Byte) (wait : Word16) :
    (answerReadJournal ack maximum reserved wait s).1.Accounted := by
  have hacknowledged := Journal.Accounts.acknowledge h ack.toNat
  unfold answerReadJournal
  dsimp only
  iterate 3
    split
    · exact h
  split
  · split
    · exact h
    · exact hacknowledged.congr rfl rfl rfl
  · exact hacknowledged.congr rfl rfl rfl

theorem setJournal (watermark : Word16) : (answerSetJournal watermark s).1.Accounted := by
  unfold answerSetJournal
  split
  · exact h
  · exact h.marks rfl

theorem configureLine (line role rest filter capture : Byte) :
    (answerConfigureLine line role rest filter capture s).1.Accounted := by
  unfold answerConfigureLine
  split
  · rename_i l c _ _
    iterate 3
      split
      · exact h
    exact (h.congr (s' := s.setLine l role.toNat (rest == 1) filter c) rfl).acceptUnfiltered l
  · exact h

/-! ### Sessions -/

theorem endSession : s.endSession.Accounted := h.marks s.endSession_journal

theorem answerDeferred : s.answerDeferred.Accounted := h.congr s.answerDeferred_journal

theorem openSession (keepalive : Word16) : (answerOpenSession keepalive s).1.Accounted := by
  unfold answerOpenSession
  split
  · exact h
  dsimp only
  split
  · exact h.endSession.answerDeferred.marks rfl
  · exact h.marks rfl

theorem loseLink : s.loseLink.Accounted := h.endSession.congr rfl

theorem advance (n : Nat) : (s.advance n).Accounted := by
  unfold State.advance
  split
  · exact h
  · exact h.marks rfl

/-! ### The dispatcher, whatever the request -/

/-- Whatever a request's owner answers, the journal keeps its account. -/
theorem answer (i : Instr) : (ownerOf i s).1.Accounted := by
  cases i with
  | openSession tag keepalive => exact h.openSession keepalive
  | closeSession tag => exact h.endSession.answerDeferred
  | configureLine tag line role rest filter capture => exact h.configureLine line role rest filter capture
  | readJournal tag ack maximum reserved wait => exact h.readJournal ack maximum reserved wait
  | setJournal tag watermark => exact h.setJournal watermark
  | ackEvents tag seq => exact h.congr (answerAckEvents_journal seq s)
  | replayEvents tag seq => exact h.congr (answerReplayEvents_journal seq s)
  | setTick tag divider => exact h.congr (answerSetTick_journal divider s)
  | setReference tag interval window => exact h.congr (answerSetReference_journal interval window s)
  | openPage tag period repeats flags reserved => exact h.congr (answerOpenPage_journal period repeats flags reserved s)
  | appendSteps tag page reserved records => exact h.congr (answerAppendSteps_journal page reserved records s)
  | sealPage tag page => exact h.congr (answerSealPage_journal page s)
  | discardPage tag page => exact h.congr (answerDiscardPage_journal page s)
  | readPage tag page first => exact h.congr (answerReadPage_journal page first s)
  | configureTrack tag track enable policy options group rest =>
    exact h.congr (answerConfigureTrack_journal track enable policy options group rest s)
  | queuePage tag page track => exact h.congr (answerQueuePage_journal page track s)
  | flushQueue tag track => exact h.congr (answerFlushQueue_journal track s)
  | startTrackAt tag track options trigger time offset =>
    exact h.congr (answerStartAt_journal track options trigger time offset s)
  | startTrackAfter tag track options trigger time offset =>
    exact h.congr (answerStartAfter_journal track options trigger time offset s)
  | startTrackOnTrigger tag track options trigger time offset =>
    exact h.congr (answerStartOnTrigger_journal track options trigger time offset s)
  | startTrackAtEpoch tag track options trigger time offset =>
    exact h.congr (answerStartAtEpoch_journal track options trigger time offset s)
  | stopTrackAbort tag track => exact h.congr (answerStopAbort_journal track s)
  | stopTrackEnd tag track => exact h.congr (answerStopEnd_journal track s)
  | holdTrack tag track => exact h.congr (answerHoldTrack_journal track s)
  | releaseTrack tag track => exact h.congr (answerReleaseTrack_journal track s)
  | readTrack tag track => exact h.congr (answerReadTrack_journal track s)
  | armTrigger tag trigger line sense count flags =>
    exact h.congr (answerArmTrigger_journal trigger line sense count flags s)
  | disarmTrigger tag trigger => exact h.congr (answerDisarmTrigger_journal trigger s)
  | readTrigger tag trigger => exact h.congr (answerReadTrigger_journal trigger s)
  | _ => exact h

end State.Accounted

/-- Executing a request leaves the journal as its owner does. -/
theorem State.execute_journal (s : State) (f : Frame) (own : State → State × Answer) :
    (s.execute f own).journal = (own s).1.journal := by
  unfold State.execute
  rcases own s with ⟨s', status | owner⟩ <;> simp

/-- The journal's account is kept under every operation of a step. -/
theorem State.accounted_invariant : State.Invariant State.Accounted where
  pending _ _ h := h.congr rfl
  choices _ _ h := h.congr rfl
  advance _ n h := h.advance n
  assemble _ _ _ _ h := h.congr rfl
  linkFault _ _ h := h.congr (by simp)
  restartSilence _ h := h.congr (by simp)
  byteDropped _ h := h.congr rfl
  byteTaken _ _ _ h := h.congr rfl
  pushReply _ _ _ h := h.congr rfl
  cacheReply _ _ h := h.congr (by simp)
  execute s f i _ _ _ h := (h.answer i).congr (s.execute_journal f _)
  send _ _ h := h.congr rfl
  noticeTaken _ _ h := h.congr rfl
  replyTaken _ _ _ _ h := h.congr rfl
  eventTaken _ _ _ _ h := h.congr rfl
  resetReplyTaken _ h := h.congr rfl
  loseLink _ h := h.loseLink
  beginReset _ _ _ := Journal.afterReset_accounts
  endReset _ _ h := h.congr rfl
  endStartUp _ h := h.congr rfl
  freshSample _ h := h.congr rfl
  showLevel _ _ _ h := h.congr rfl
  joinSample _ _ h := h.congr rfl
  acceptEdge _ l h := h.acceptEdge l
  pulse _ h := h.congr (by simp)
  missPulse _ h := h.congr (by simp)
  discardFiring _ _ h := h.congr (by simp)
  endGate _ _ h := h.congr (by simp)
  resumeReleased _ _ h := h.congr (by simp)
  expireRead s h := h.marks s.expireRead_journal
  startEffect _ _ h := h.congr (by simp)
  releaseEffect _ _ h := h.congr (by simp)
  trackActions _ _ h := h.congr (by simp)

/-- Settles O60: the account of sequence numbers is an invariant of the operations of a step. -/
theorem stepsKeepTheJournalAccount : Obligations.StepsKeepTheJournalAccount :=
  fun _ _ h ht => State.accounted_invariant.step h ht

end Sys2Proof.Machine
end

section
/-! What a captured edge does to the part: recorded, given to the read that waits, or dropped into the pending gap (R134, R136,
R140, R141, R144). -/
namespace Sys2Proof.Machine

@[simp] theorem State.noticeJournal_link (s : State) : s.noticeJournal.link = s.link := by
  unfold State.noticeJournal
  split <;> simp

theorem State.noticeJournal_waiting (s : State) : s.noticeJournal.journal.waiting = s.journal.waiting := by
  rw [State.noticeJournal_journal]

/-- The notice flag is of no matter to the fields of a reply. -/
theorem State.noticeJournal_readFields (s : State) (m : Nat) :
    s.noticeJournal.journal.readFields m = s.journal.readFields m := by
  rw [State.noticeJournal_journal]
  rfl

/-- With no read waiting, a recorded edge is examined against the watermark alone. -/
theorem State.recordEdge_unread {s : State} (hroom : s.journal.records.length < Config.journalRecords)
    (hw : s.journal.waiting = none) (l : LineId) (rising : Bool) (f : Stamp) :
    s.recordEdge l rising f = State.noticeJournal { s with journal := s.journal.recorded l rising f } :=
  (State.recordEdge_room hroom l rising f).trans (State.completeRead_none ((State.noticeJournal_waiting _).trans hw))

/-- A recorded edge that finds a read waiting is recorded as without one, and answers it (R141). -/
theorem State.recordEdge_read {s : State} (hroom : s.journal.records.length < Config.journalRecords) {w : WaitingRead}
    (hw : s.journal.waiting = some w) (l : LineId) (rising : Bool) (f : Stamp) :
    s.recordEdge l rising f =
      (State.recordEdge { s with journal := { s.journal with waiting := none } } l rising f).compose .readJournal .ok
        ((s.journal.recorded l rising f).readFields w.maximum) := by
  have hread : (State.noticeJournal { s with journal := s.journal.recorded l rising f }).journal.waiting = some w :=
    (State.noticeJournal_waiting _).trans hw
  have hunread := State.recordEdge_unread (s := { s with journal := { s.journal with waiting := none } }) hroom rfl l rising f
  rw [State.recordEdge_room hroom, State.completeRead_some hread, State.noticeJournal_readFields, hunread,
    ← State.noticeJournal_withWaiting]
  rfl

/-- The link unit is not touched by an edge that finds no read waiting. -/
theorem State.recordEdge_unread_link {s : State} (hroom : s.journal.records.length < Config.journalRecords)
    (hw : s.journal.waiting = none) (l : LineId) (rising : Bool) (f : Stamp) : (s.recordEdge l rising f).link = s.link := by
  rw [State.recordEdge_unread hroom hw, State.noticeJournal_link]

/-- The fields with which a recorded edge answers the waiting read (R140). -/
theorem Journal.recorded_readFields (j : Journal) (l : LineId) (rising : Bool) (f : Stamp) (m : Nat) :
    (j.recorded l rising f).readFields m =
      u16 (j.records.length + 1) ++ le32 ((j.gap.map Gap.count).getD 0) ++
        u8 ((j.records ++ [j.edgeRecord l rising f]).take m).length ++
        ((j.records ++ [j.edgeRecord l rising f]).take m).flatMap Record.bytes := by
  have hheld : (j.recorded l rising f).records.length = j.records.length + 1 := List.length_append
  rw [Journal.readFields, hheld]
  rfl

/-- Settles O50: a recorded edge by the watermark and by the read that waits, an edge on a full journal by the pending gap. -/
theorem capturedEdgesAreRecordedOrDropped : Obligations.CapturedEdgesAreRecordedOrDropped := by
  unfold Obligations.CapturedEdgesAreRecordedOrDropped
  intro s l rising f
  have hheld : (s.journal.recorded l rising f).records.length = s.journal.records.length + 1 := List.length_append
  refine ⟨fun hroom hw => ⟨fun hnot => ?_, fun hmark hheld' hclear hopen => ?_⟩, fun w hroom hw => ?_,
    fun hfull => ⟨fun hgap => ?_, fun g hgap hcount => ?_, fun g hgap hcount => ?_⟩⟩
  · refine (State.recordEdge_unread hroom hw l rising f).trans (State.noticeJournal_not_due ?_)
    rintro ⟨hmark, hle, hclear, hopen⟩
    rcases hnot with h | h | h | h
    · exact hmark h
    · exact absurd (hheld ▸ hle) (Nat.not_le.mpr h)
    · exact absurd (hclear.symm.trans h) nofun
    · exact absurd (hopen.symm.trans h) nofun
  · have hdue : State.NoticeDue { s with journal := s.journal.recorded l rising f } :=
      ⟨hmark, hheld.symm ▸ hheld', hclear, hopen⟩
    refine (State.recordEdge_unread hroom hw l rising f).trans ((State.noticeJournal_due hdue).trans ?_)
    dsimp only
    rw [hheld]
    rfl
  · obtain ⟨hanswered, hframe⟩ := State.compose_answered
      (State.recordEdge { s with journal := { s.journal with waiting := none } } l rising f) .readJournal .ok
      ((s.journal.recorded l rising f).readFields w.maximum)
    rw [State.recordEdge_unread_link (s := { s with journal := { s.journal with waiting := none } }) hroom rfl,
      Journal.recorded_readFields] at hanswered
    refine ⟨_, State.recordEdge_read hroom hw l rising f, hframe, ?_⟩
    rw [Journal.recorded_readFields]
    exact hanswered
  · exact State.recordEdge_newGap hfull hgap l rising f
  · exact (State.recordEdge_gap hfull hgap l rising f).trans (if_neg hcount)
  · exact (State.recordEdge_gap hfull hgap l rising f).trans (if_pos hcount)

end Sys2Proof.Machine
end

section
/-! Read Journal and the end of its wait (R137 to R141). -/
namespace Sys2Proof.Machine

/-! ### What an acknowledgement leaves -/

theorem Journal.acknowledge_no_gap {j : Journal} (h : j.gap = none) (a : Nat) :
    j.acknowledge a = { j with records := j.records.drop a } := by rw [Journal.acknowledge, h]

theorem Journal.acknowledge_nothing (j : Journal) : j.acknowledge 0 = j := by
  cases h : j.gap with
  | none => exact Journal.acknowledge_no_gap h 0
  | some g => rw [Journal.acknowledge, h]; exact if_pos rfl

theorem Journal.acknowledge_gap {j : Journal} {g : Gap} (h : j.gap = some g) {a : Nat} (ha : a ≠ 0) :
    j.acknowledge a = { j with
      records := j.records.drop a ++ [⟨g.firstSeq, g.count, .gap, 0, g.firstStamp⟩], gap := none } := by
  rw [Journal.acknowledge, h]
  exact if_neg ha

/-- The fields of a refusal: the records held and the gap count, no record (R138, R188). -/
theorem Journal.readFields_zero (j : Journal) :
    j.readFields 0 = u16 j.records.length ++ le32 ((j.gap.map Gap.count).getD 0) ++ u8 0 := by
  rw [Journal.readFields, List.take_zero]
  exact List.append_nil _

/-! ### The answers -/

/-- The bytes of a Read Journal are in range (R138 check 1, R186). -/
def ReadFits (maximum reserved : Byte) (wait : Word16) : Prop :=
  reserved = 0 ∧ maximum.toNat ≤ 14 ∧ wait.toNat ≤ 5000

section
variable {u : State} {ack wait : Word16} {maximum reserved : Byte}

theorem ReadFits.not_out (h : ReadFits maximum reserved wait) :
    ¬(reserved ≠ 0 ∨ 14 < maximum.toNat ∨ 5000 < wait.toNat) := by
  obtain ⟨hreserved, hmaximum, hwait⟩ := h
  rintro (h | h | h)
  · exact h hreserved
  · exact Nat.not_lt.mpr hmaximum h
  · exact Nat.not_lt.mpr hwait h

theorem answerReadJournal_outOfRange (h : reserved ≠ 0 ∨ 14 < maximum.toNat ∨ 5000 < wait.toNat) :
    answerReadJournal ack maximum reserved wait u = (u, .say .badValue (u.journal.readFields 0)) := if_pos h

theorem answerReadJournal_busy (hfits : ReadFits maximum reserved wait) (hw : u.journal.waiting ≠ none) :
    answerReadJournal ack maximum reserved wait u = (u, .say .busy (u.journal.readFields 0)) :=
  (if_neg hfits.not_out).trans (if_pos (Option.isSome_iff_ne_none.mpr hw))

theorem answerReadJournal_notHeld (hfits : ReadFits maximum reserved wait) (hw : u.journal.waiting = none)
    (hack : u.journal.records.length < ack.toNat) :
    answerReadJournal ack maximum reserved wait u = (u, .say .badValue (u.journal.readFields 0)) :=
  (if_neg hfits.not_out).trans ((if_neg (by simp [hw])).trans (if_pos hack))

/-- A Read Journal that passes its checks, by what the acknowledgement leaves: it waits with nothing left and a wait that is not
0, for which it needs a slot, and is answered at once otherwise (R138 check 4, R139, R140). -/
theorem answerReadJournal_accepted (hfits : ReadFits maximum reserved wait) (hw : u.journal.waiting = none)
    (hack : ack.toNat ≤ u.journal.records.length) {left : List Record} {gap : Option Gap}
    (hleft : u.journal.acknowledge ack.toNat = { u.journal with records := left, gap := gap }) :
    answerReadJournal ack maximum reserved wait u =
      if left = [] ∧ wait ≠ 0 then
        if 4 ≤ u.heldSlots then (u, .say .windowFull (u.journal.readFields 0))
        else
          ({ u with journal := { u.journal with
              records := left, gap := gap, notice := false, waiting := some ⟨maximum.toNat, wait.toNat * 100000⟩ } },
            .deferred .readJournal)
      else
        ({ u with journal := { u.journal with records := left, gap := gap, notice := false } },
          .say .ok (Journal.readFields { u.journal with records := left, gap := gap, notice := false } maximum.toNat)) := by
  have hwaits : u.journal.wouldWait ack.toNat wait.toNat = true ↔ left = [] ∧ wait ≠ 0 := by
    rw [Journal.wouldWait, hleft, Bool.and_eq_true, List.isEmpty_iff, bne_iff_ne]
    exact and_congr_right' (not_congr (BitVec.toNat_inj (y := 0)))
  refine (if_neg hfits.not_out).trans ((if_neg (by simp [hw])).trans ((if_neg (Nat.not_lt.mpr hack)).trans ?_))
  dsimp only
  simp only [hwaits, hleft, Bool.not_eq_true', State.slotFree_eq_false_iff]
  rfl

end

/-! ### The end of the wait -/

/-- Periods of the base clock neither begin nor end a waiting read. -/
theorem State.afterPeriods_waiting (s : State) (d : Nat) :
    (s.afterPeriods d).journal.waiting.isSome = s.journal.waiting.isSome := by
  unfold State.afterPeriods State.advance
  split
  · rfl
  · split
    · rfl
    · exact Option.isSome_map

/-- At the end of its wait a read still waits (R141). -/
theorem State.dueAfter_journalWaitExpiry {s : State} {d : Nat} (h : s.dueAfter .journalWaitExpiry d) :
    ∃ w, (s.afterPeriods d).journal.waiting = some w := by
  obtain ⟨w, hw, _⟩ := Option.map_eq_some_iff.mp (show s.journal.waiting.map WaitingRead.remaining = some d from h.1)
  rw [← Option.isSome_iff_exists, State.afterPeriods_waiting, hw]
  rfl

theorem isRequest_readJournal {tag : Byte} {ack wait : Word16} {maximum reserved : Byte} :
    IsRequest (.readJournal tag ack maximum reserved wait) 0x48 tag := ⟨fun _ => rfl, _, rfl, rfl, rfl⟩

/-- An executed Read Journal that passes its checks, by what the acknowledgement leaves (R138 to R140, R172). -/
theorem exec_readJournal_accepted {s : State} {tag maximum : Byte} {ack wait : Word16} (hx : s.Executes 0x48 tag)
    (hfits : ReadFits maximum 0 wait) (hw : s.journal.waiting = none) (hack : ack.toNat ≤ s.journal.records.length)
    {session : Session} (hb : s.restartSilence = { s with session := session }) {left : List Record} {gap : Option Gap}
    (hleft : s.journal.acknowledge ack.toNat = { s.journal with records := left, gap := gap }) :
    (left ≠ [] ∨ wait = 0 → exec (.readJournal tag ack maximum 0 wait) s =
      .next (State.answered { s with
          session := session, journal := { s.journal with records := left, gap := gap, notice := false } } 0xC8 tag .ok
        (u16 left.length ++ le32 ((gap.map Gap.count).getD 0) ++ u8 (left.take maximum.toNat).length ++
          (left.take maximum.toNat).flatMap Record.bytes))) ∧
    (left = [] → wait ≠ 0 → 4 ≤ s.heldSlots → exec (.readJournal tag ack maximum 0 wait) s =
      .next (State.answered { s with session := session } 0xC8 tag .windowFull (s.journal.readFields 0))) ∧
    (left = [] → wait ≠ 0 → s.heldSlots < 4 → exec (.readJournal tag ack maximum 0 wait) s =
      .next { s with
        session := session
        journal := { s.journal with
          records := [], gap := gap, notice := false, waiting := some ⟨maximum.toNat, wait.toNat * 100000⟩ }
        link := { s.link with awaiting := s.link.awaiting ++ [⟨.readJournal, tag⟩] } }) := by
  have accepted := answerReadJournal_accepted (u := { s with session := session }) hfits hw hack hleft
  refine ⟨fun hnow => ?_, fun hnone hwait hslots => ?_, fun hnone hwait hslots => ?_⟩
  · refine isRequest_readJournal.reply hx hb (accepted.trans (if_neg ?_))
    rintro ⟨hnone, hwait⟩
    exact hnow.elim (· hnone) hwait
  · exact isRequest_readJournal.reply hx hb (accepted.trans ((if_pos ⟨hnone, hwait⟩).trans (if_pos hslots)))
  · subst hnone
    exact isRequest_readJournal.defers hx hb
      (accepted.trans ((if_pos ⟨rfl, hwait⟩).trans (if_neg (Nat.not_le.mpr hslots))))

/-- Settles O48: the checks in their order, an accepted read by what its acknowledgement leaves, and the end of its wait. -/
theorem readJournalAcknowledgesAndReturns : Obligations.ReadJournalAcknowledgesAndReturns := by
  unfold Obligations.ReadJournalAcknowledgesAndReturns
  refine ⟨fun s tag ack maximum reserved wait _ hx => ?_, fun s tag ack maximum wait _ hx hmaximum hwait hw => ?_,
    fun s d hdue => ?_⟩
  · obtain ⟨session, hb⟩ := s.restartSilence_eq
    simp only [hb, ← Journal.readFields_zero]
    exact ⟨fun h => isRequest_readJournal.reply hx hb (answerReadJournal_outOfRange h),
      fun hreserved hmaximum hwait hw =>
        isRequest_readJournal.reply hx hb (answerReadJournal_busy ⟨hreserved, hmaximum, hwait⟩ hw)⟩
  · obtain ⟨session, hb⟩ := s.restartSilence_eq
    have hfits : ReadFits maximum 0 wait := ⟨rfl, hmaximum, hwait⟩
    simp only [hb, ← Journal.readFields_zero]
    refine ⟨fun hack => isRequest_readJournal.reply hx hb (answerReadJournal_notHeld hfits hw hack), fun hack => ?_⟩
    refine exec_readJournal_accepted hx hfits hw hack hb ?_
    by_cases ha : ack = 0
    · subst ha
      refine s.journal.acknowledge_nothing.trans ?_
      split <;> rfl
    · have hne : ack.toNat ≠ 0 := mt (BitVec.toNat_inj (y := 0)).mp ha
      cases hgap : s.journal.gap with
      | none =>
        refine (Journal.acknowledge_no_gap hgap _).trans ?_
        dsimp only
        rw [if_neg ha, ← hgap]
      | some g =>
        refine (Journal.acknowledge_gap hgap hne).trans ?_
        dsimp only
        rw [if_neg ha, if_neg ha]
  · obtain ⟨w, hw⟩ := State.dueAfter_journalWaitExpiry hdue
    obtain ⟨hanswered, hframe⟩ := State.compose_answered
      { s.afterPeriods d with journal := { (s.afterPeriods d).journal with waiting := none } } .readJournal .ok (zeros 7)
    exact ⟨_, congrArg Host.Outcome.next ((State.atDue_of_dueAfter hdue State.expireRead).trans (State.expireRead_some hw)),
      hframe, hanswered⟩

end Sys2Proof.Machine
end

section
/-! The event queue: what the event unit stores and what it counts as lost (R148 to R151). -/
namespace Sys2Proof.Machine

/-! ### The Events Lost entry -/

/-- Counting a lost event: the count rises and the entry becomes unsent, unless the count stands at 65535 (R151). -/
theorem Entry.countLost_eq (seq : Word16) (n : Nat) (sent : Bool) :
    Entry.countLost ⟨seq, .eventsLost n, sent⟩ =
      if n < 65535 then ⟨seq, .eventsLost (n + 1), false⟩ else ⟨seq, .eventsLost n, sent⟩ := rfl

/-- A lost event is counted in the Events Lost entry alone. -/
theorem map_countLost_append {ordinary : List Entry} (h : ∀ x ∈ ordinary, x.isLost = false) (e : Entry) :
    (ordinary ++ [e]).map Entry.countLost = ordinary ++ [e.countLost] := by
  have hkept (x : Entry) (hx : x ∈ ordinary) : x.countLost = x := by
    obtain ⟨-, -, -, hsame⟩ := x.countLost_keeps
    exact hsame (h x hx)
  rw [List.map_append, List.map_congr_left hkept, List.map_id', List.map_singleton]

/-! ### What the event unit does with an ordinary event, by what the queue holds (R150) -/

namespace EventUnit
variable {u : EventUnit}

theorem hasRoom_iff : u.hasRoom = true ↔ (∀ x ∈ u.queue, x.isLost = false) ∧ u.queue.length < 31 := by
  rw [hasRoom, Bool.and_eq_true, decide_eq_true_iff, Bool.not_eq_true', List.any_eq_false]
  simp only [Bool.not_eq_true]
  rfl

theorem hasRoom_eq_false_iff : u.hasRoom = false ↔ (∃ x ∈ u.queue, x.isLost = true) ∨ 31 ≤ u.queue.length := by
  rw [← Bool.not_eq_true, hasRoom_iff]
  simp only [not_and_or, not_forall, Bool.not_eq_false, exists_prop, Nat.not_lt]

theorem store_room (hroom : u.hasRoom = true) (e : Event) :
    u.store e = ⟨u.queue ++ [⟨u.next, e, false⟩], u.next + 1⟩ := by
  obtain ⟨hnone, hfew⟩ := hasRoom_iff.mp hroom
  have hany : u.queue.any Entry.isLost = false := by simpa using hnone
  rw [store, hany]
  exact if_pos hfew

theorem store_full (hnone : ∀ x ∈ u.queue, x.isLost = false) (hfull : 31 ≤ u.queue.length) (e : Event) :
    u.store e = ⟨u.queue ++ [⟨u.next, .eventsLost 1, false⟩], u.next + 1⟩ := by
  have hany : u.queue.any Entry.isLost = false := by simpa using hnone
  rw [store, hany]
  exact if_neg (Nat.not_lt.mpr hfull)

theorem store_lost {ordinary : List Entry} {seq : Word16} {n : Nat} {sent : Bool}
    (hord : ∀ x ∈ ordinary, x.isLost = false) (hq : u.queue = ordinary ++ [⟨seq, .eventsLost n, sent⟩]) (e : Event) :
    u.store e =
      ⟨ordinary ++ [if n < 65535 then ⟨seq, .eventsLost (n + 1), false⟩ else ⟨seq, .eventsLost n, sent⟩], u.next⟩ := by
  have hany : u.queue.any Entry.isLost = true := by simp [hq, Entry.isLost]
  rw [store, if_pos hany, hq, map_countLost_append hord, Entry.countLost_eq]

/-- An entry that is created takes the counter's value, and the counter rises by 1 (R152). -/
theorem store_creates (hnone : ∀ x ∈ u.queue, x.isLost = false) (e : Event) :
    ∃ stored : Event, u.store e = ⟨u.queue ++ [⟨u.next, stored, false⟩], u.next + 1⟩ := by
  rcases Nat.lt_or_ge u.queue.length 31 with hfew | hfull
  · exact ⟨e, store_room (hasRoom_iff.mpr ⟨hnone, hfew⟩) e⟩
  · exact ⟨.eventsLost 1, store_full hnone hfull e⟩

end EventUnit

/-- Settles O51: the event unit by what the queue holds, room, 31 ordinary entries, or the Events Lost entry. -/
theorem eventsAreStoredOrCounted : Obligations.EventsAreStoredOrCounted := by
  unfold Obligations.EventsAreStoredOrCounted
  intro s e
  refine ⟨fun hclosed => State.queueEvent_closed hclosed e, fun hopen => ?_⟩
  have queued {v : EventUnit} (h : s.events.store e = v) : s.queueEvent e = { s with events := v } := by
    rw [State.queueEvent_open hopen, h]
  refine ⟨fun hnone hfew => queued (EventUnit.store_room (EventUnit.hasRoom_iff.mpr ⟨hnone, hfew⟩) e),
    fun hnone hfull => queued (EventUnit.store_full hnone hfull.ge e), fun ordinary seq n sent hord hq => ?_⟩
  have hstore := EventUnit.store_lost hord hq e
  refine ⟨fun hbelow => ?_, fun hmost => ?_⟩
  · rw [if_pos hbelow] at hstore
    exact queued hstore
  · rw [if_neg (Nat.not_lt.mpr hmost), ← hq] at hstore
    exact queued hstore

end Sys2Proof.Machine
end

section
/-! The sequence numbers of the event queue, and the place of a number against it (R152). -/
namespace Sys2Proof.Machine

namespace EventUnit.WellFormed
variable {u : EventUnit} (h : u.WellFormed)
include h

/-- Beside its newest entry the queue holds ordinary entries alone, so it holds at most 32 (R148). -/
theorem length_le : u.queue.length ≤ 32 := by
  rcases List.eq_nil_or_concat u.queue with hq | ⟨older, newest, hq⟩
  · simp [hq]
  rw [List.concat_eq_append] at hq
  have holder : ∀ x ∈ older, (!x.isLost) = true := by
    intro x hx
    obtain ⟨i, hi⟩ := List.mem_iff_getElem?.mp hx
    have hlt : i < older.length := (List.getElem?_eq_some_iff.mp hi).1
    cases hlost : x.isLost with
    | false => rfl
    | true =>
      have hnewest := h.lostNewest i x (by rw [hq, List.getElem?_append_left hlt, hi]) hlost
      rw [hq, List.length_append, List.length_singleton] at hnewest
      omega
  have hordinary := h.ordinary
  rw [hq, List.countP_append, List.countP_eq_length.mpr holder, Config.ordinaryEvents] at hordinary
  rw [hq, List.length_append, List.length_singleton]
  omega

/-- Consecutive numbers of at most 32 entries differ (R152). -/
theorem seq_injective {i j : Nat} {e f : Entry} (hi : u.queue[i]? = some e) (hj : u.queue[j]? = some f)
    (hseq : e.seq = f.seq) : i = j := by
  have hle := h.length_le
  have hilt : i < u.queue.length := (List.getElem?_eq_some_iff.mp hi).1
  have hjlt : j < u.queue.length := (List.getElem?_eq_some_iff.mp hj).1
  rw [h.consecutive i e hi, h.consecutive j f hj, BitVec.sub_right_inj] at hseq
  have hdistance := congrArg BitVec.toNat hseq
  rw [BitVec.toNat_ofNat, BitVec.toNat_ofNat, Nat.mod_eq_of_lt (by omega), Nat.mod_eq_of_lt (by omega)] at hdistance
  omega

end EventUnit.WellFormed

/-! ### Placing a number -/

namespace EventUnit
variable {u : EventUnit} {n : Word16}

theorem place_held (h : (n - u.oldest).toNat < u.queue.length) : u.place n = .held (n - u.oldest).toNat := if_pos h

theorem place_behind (h : u.queue.length ≤ (n - u.oldest).toNat)
    (hback : 1 ≤ (u.oldest - n).toNat ∧ (u.oldest - n).toNat ≤ 32768) : u.place n = .behind :=
  (if_neg (Nat.not_lt.mpr h)).trans (if_pos hback)

theorem place_beyond (h : u.queue.length ≤ (n - u.oldest).toNat)
    (hback : ¬(1 ≤ (u.oldest - n).toNat ∧ (u.oldest - n).toNat ≤ 32768)) : u.place n = .beyond :=
  (if_neg (Nat.not_lt.mpr h)).trans (if_neg hback)

/-- In a new session the numbers 1 to 32768 have yet to be given (R152). -/
theorem place_newSession (hone : 1 ≤ n.toNat) (hmost : n.toNat ≤ 32768) : EventUnit.place ⟨[], 1⟩ n = .beyond := by
  refine place_beyond (Nat.zero_le _) ?_
  change ¬(1 ≤ ((1 : Word16) - n).toNat ∧ ((1 : Word16) - n).toNat ≤ 32768)
  bv_omega

end EventUnit

/-- Settles O52: the counter at a session open and at an entry's creation, the numbers of a well-formed queue, and the place of
a number by its distance from the reference. -/
theorem eventNumbersArePlaced : Obligations.EventNumbersArePlaced := by
  unfold Obligations.EventNumbersArePlaced
  refine ⟨fun _ _ => rfl, fun u e hnone => EventUnit.store_creates hnone e, rfl,
    fun u h => ⟨h.length_le, fun i j e f hi hj => h.seq_injective hi hj⟩, fun u n => ?_,
    EventUnit.place_behind (Nat.zero_le _) (by decide), fun n hone hmost => EventUnit.place_newSession hone hmost⟩
  exact ⟨EventUnit.place_held, fun h hone hmost => EventUnit.place_behind h ⟨hone, hmost⟩, EventUnit.place_beyond⟩

end Sys2Proof.Machine
end

section
/-! Link faults: what a fault does to the tallies and the event queue, and the gap timer's expiry (R157, R165, R166). -/
namespace Sys2Proof.Machine

section
variable {s : State}

/-! ### Link Fault queued -/

/-- In an open session Link Fault goes to the event unit with the tallies, which become 0 if it is stored (R157). -/
theorem State.reportLinkFault_open (hopen : s.isOpen = true) :
    s.reportLinkFault = { s with
      events := s.events.store (.linkFault s.link.tallies)
      link := { s.link with tallies := if s.events.hasRoom then Tallies.zero else s.link.tallies } } := by
  rw [State.reportLinkFault, State.queueEvent_open hopen, hopen, Bool.true_and]
  cases s.events.hasRoom <;> rfl

theorem State.reportLinkFault_stored (hopen : s.isOpen = true) (hroom : s.events.hasRoom = true) :
    s.reportLinkFault = { s with
      events := ⟨s.events.queue ++ [⟨s.events.next, .linkFault s.link.tallies, false⟩], s.events.next + 1⟩
      link := { s.link with tallies := ⟨0, 0, 0, 0⟩ } } := by
  rw [State.reportLinkFault_open hopen, if_pos hroom, EventUnit.store_room hroom]
  rfl

theorem State.reportLinkFault_lost (hopen : s.isOpen = true) (hfull : s.events.hasRoom = false) :
    s.reportLinkFault = { s with events := s.events.store (.linkFault s.link.tallies) } := by
  rw [State.reportLinkFault_open hopen, if_neg (Bool.eq_false_iff.mp hfull)]

/-! ### A link fault -/

/-- With no session open or a Link Fault entry held a fault is counted in its tally alone (R157). -/
theorem State.linkFault_unreported (h : s.isOpen = false ∨ ∃ e ∈ s.events.queue, e.isLinkFault = true)
    (kind : LinkFaultKind) :
    s.linkFault kind = { s with link := { s.link with tallies := s.link.tallies.count kind } } := by
  refine if_neg fun hreport => ?_
  obtain ⟨hopen, hnone⟩ := Bool.and_eq_true_iff.mp hreport
  rcases h with hclosed | hheld
  · exact Bool.eq_false_iff.mp hclosed hopen
  · exact Bool.eq_false_iff.mp (Bool.not_eq_true' _ ▸ hnone) (List.any_eq_true.mpr hheld)

/-- In an open session that holds no Link Fault entry a fault is counted in its tally and reported (R157). -/
theorem State.linkFault_reported (hopen : s.isOpen = true) (hnone : ∀ e ∈ s.events.queue, e.isLinkFault = false)
    (kind : LinkFaultKind) :
    s.linkFault kind =
      State.reportLinkFault { s with link := { s.link with tallies := s.link.tallies.count kind } } := by
  refine if_pos (Bool.and_eq_true_iff.mpr ⟨hopen, ?_⟩)
  simpa using hnone

end

/-! ### The gap timer -/

/-- Settles O15: the expiry is a TIMEOUT fault on the part without its partial frame, unreported in a closed session or with a
Link Fault entry held, else stored where there is room. -/
theorem gapTimeoutDiscardsThePartialFrame : Obligations.GapTimeoutDiscardsThePartialFrame := by
  unfold Obligations.GapTimeoutDiscardsThePartialFrame
  intro s d hdue
  rw [← State.afterPeriods_events s d, ← State.afterPeriods_isOpen s d, ← State.afterPeriods_link_tallies s d]
  intro t
  have hexec : exec .gapTimeout s = .next ((t.assemble [] .hunt).linkFault .timeout) :=
    congrArg Host.Outcome.next (State.atDue_of_dueAfter hdue State.gapExpired)
  have expires {u : State} (h : (t.assemble [] .hunt).linkFault .timeout = u) : exec .gapTimeout s = .next u :=
    hexec.trans (congrArg Host.Outcome.next h)
  have unreported := State.linkFault_unreported (s := t.assemble [] .hunt)
  refine ⟨hexec, fun hclosed => expires (unreported (.inl hclosed) .timeout),
    fun _ hheld => expires (unreported (.inr hheld) .timeout), fun hopen hordinary hfew => expires ?_⟩
  calc (t.assemble [] .hunt).linkFault .timeout
      _ = _ := State.linkFault_reported (s := t.assemble [] .hunt) hopen (fun e he => (hordinary e he).1) .timeout
      _ = _ := State.reportLinkFault_stored hopen
        (EventUnit.hasRoom_iff.mpr ⟨fun e he => (hordinary e he).2, hfew⟩)

end Sys2Proof.Machine
end

section
/-! Ack Events and Replay Events (R155 to R157). -/
namespace Sys2Proof.Machine

/-! ### Entries removed -/

section
variable {s : State} {n : Nat}

/-- Which removed entries make the link unit queue a new Link Fault (R157). -/
def State.FaultsReported (s : State) (n : Nat) : Prop :=
  s.link.tallies ≠ ⟨0, 0, 0, 0⟩ ∧
    ((∃ e ∈ s.events.queue.take n, e.isLinkFault = true) ∨
      ((∃ e ∈ s.events.queue.take n, e.isLost = true) ∧ ∀ e ∈ s.events.queue.drop n, e.isLinkFault = false))

theorem State.faultsToReport_iff :
    State.faultsToReport { s with events := { s.events with queue := s.events.queue.drop n } } (s.events.queue.take n) = true ↔
      s.FaultsReported n := by
  simp only [State.faultsToReport, Bool.and_eq_true, decide_eq_true_iff, Bool.or_eq_true, List.any_eq_true,
    Bool.not_eq_true', List.any_eq_false, Bool.not_eq_true]
  rfl

theorem State.not_faultsReported_iff :
    ¬ s.FaultsReported n ↔
      s.link.tallies = ⟨0, 0, 0, 0⟩ ∨ ((∀ e ∈ s.events.queue.take n, e.isLinkFault = false) ∧
        ((∀ e ∈ s.events.queue.take n, e.isLost = false) ∨ ∃ e ∈ s.events.queue.drop n, e.isLinkFault = true)) := by
  simp only [State.FaultsReported, ne_eq, not_and_or, not_or, not_exists, not_forall, not_not, Bool.not_eq_true,
    Bool.not_eq_false, exists_prop, ← imp_iff_not_or]

theorem State.removeEvents_unreported (h : ¬ s.FaultsReported n) :
    s.removeEvents n = { s with events := { s.events with queue := s.events.queue.drop n } } :=
  if_neg (mt State.faultsToReport_iff.mp h)

theorem State.removeEvents_reported (h : s.FaultsReported n) :
    s.removeEvents n = State.reportLinkFault { s with events := { s.events with queue := s.events.queue.drop n } } :=
  if_pos (State.faultsToReport_iff.mpr h)

end

/-! ### The answers -/

section
variable {s : State} {seq : Word16}

/-- A held number is acknowledged if its entry is sent, and refused if it is not (R155). -/
theorem answerAckEvents_held {n : Nat} {e : Entry} (hplace : s.events.place seq = .held n)
    (he : s.events.queue[n]? = some e) :
    answerAckEvents seq s =
      if e.sent = true then (s.removeEvents (n + 1), .say .ok ((s.removeEvents (n + 1)).ackFields (n + 1)))
      else (s, .say .badValue (s.ackFields 0)) := by
  rw [answerAckEvents, hplace]
  dsimp only
  rw [he]
  rfl

theorem answerAckEvents_sent {n : Nat} (hplace : s.events.place seq = .held n)
    (hsent : ∃ e, s.events.queue[n]? = some e ∧ e.sent = true) {t : State} (ht : s.removeEvents (n + 1) = t) :
    answerAckEvents seq s = (t, .say .ok (t.ackFields (n + 1))) := by
  obtain ⟨e, he, hsent⟩ := hsent
  subst ht
  exact (answerAckEvents_held hplace he).trans (if_pos hsent)

theorem answerAckEvents_badValue
    (h : (∃ n e, s.events.place seq = .held n ∧ s.events.queue[n]? = some e ∧ e.sent = false) ∨
      s.events.place seq = .beyond) : answerAckEvents seq s = (s, .say .badValue (s.ackFields 0)) := by
  rcases h with ⟨n, e, hplace, he, hunsent⟩ | hplace
  · exact (answerAckEvents_held hplace he).trans (if_neg (Bool.eq_false_iff.mp hunsent))
  · rw [answerAckEvents, hplace]

theorem answerAckEvents_behind (h : s.events.place seq = .behind) :
    answerAckEvents seq s = (s, .say .ok (s.ackFields 0)) := by rw [answerAckEvents, h]

theorem answerReplayEvents_held {n : Nat} (h : s.events.place seq = .held n) :
    answerReplayEvents seq s =
      ({ s with events := { s.events with
          queue := s.events.queue.take n ++ (s.events.queue.drop n).map fun e => { e with sent := false } } },
        .say .ok (u8 (s.events.queue.length - n))) := by rw [answerReplayEvents, h]

theorem answerReplayEvents_notHeld (h : s.events.place seq = .behind ∨ s.events.place seq = .beyond) :
    answerReplayEvents seq s = (s, .say .notFound (zeros 1)) := by
  rcases h with h | h <;> rw [answerReplayEvents, h]

end

theorem isRequest_ackEvents {tag : Byte} {seq : Word16} : IsRequest (.ackEvents tag seq) 0x06 tag :=
  ⟨fun _ => rfl, _, rfl, rfl, rfl⟩

theorem isRequest_replayEvents {tag : Byte} {seq : Word16} : IsRequest (.replayEvents tag seq) 0x07 tag :=
  ⟨fun _ => rfl, _, rfl, rfl, rfl⟩

/-- An executed Ack Events of a held and sent number leaves what the removal leaves, and reports it (R155). -/
theorem exec_ackEvents_sent {s b t : State} {tag : Byte} {seq : Word16} {n : Nat} (hx : s.Executes 0x06 tag)
    (hb : s.restartSilence = b) (hplace : b.events.place seq = .held n)
    (hsent : ∃ e, b.events.queue[n]? = some e ∧ e.sent = true) (ht : b.removeEvents (n + 1) = t) :
    exec (.ackEvents tag seq) s = .next (t.answered 0x86 tag .ok (t.ackFields (n + 1))) :=
  isRequest_ackEvents.reply hx hb (answerAckEvents_sent hplace hsent ht)

/-- Settles O53: an acknowledged number by its place and by whether the removal reports link faults, a replayed one by its
place. -/
theorem eventsAreAcknowledgedAndReplayed : Obligations.EventsAreAcknowledgedAndReplayed := by
  unfold Obligations.EventsAreAcknowledgedAndReplayed
  intro s tag seq hopen
  obtain ⟨session, hb⟩ := s.restartSilence_eq
  have hopen' : State.isOpen { s with session := session } = true := hb ▸ s.isOpen_restartSilence.trans hopen
  simp only [hb]
  refine ⟨fun hx => ⟨fun n hplace hsent => ?_, fun h => isRequest_ackEvents.reply hx hb (answerAckEvents_badValue h),
      fun h => isRequest_ackEvents.reply hx hb (answerAckEvents_behind h)⟩,
    fun hx => ⟨fun n h => isRequest_replayEvents.reply hx hb (answerReplayEvents_held h),
      fun h => isRequest_replayEvents.reply hx hb (answerReplayEvents_notHeld h)⟩⟩
  have acked {t : State} (ht : State.removeEvents { s with session := session } (n + 1) = t) :
      exec (.ackEvents tag seq) s = .next (t.answered 0x86 tag .ok (t.ackFields (n + 1))) :=
    exec_ackEvents_sent hx hb hplace hsent ht
  refine ⟨fun hquiet => acked (State.removeEvents_unreported (State.not_faultsReported_iff.mpr hquiet)),
    fun htallies hremoved => ?_⟩
  have reported := State.removeEvents_reported (s := { s with session := session }) ⟨htallies, hremoved⟩
  refine ⟨fun hnone hfew => acked (reported.trans (State.reportLinkFault_stored hopen' ?_)), fun hfull => acked
    (reported.trans (State.reportLinkFault_lost hopen' (EventUnit.hasRoom_eq_false_iff.mpr hfull)))⟩
  exact EventUnit.hasRoom_iff.mpr ⟨hnone, hfew⟩

end Sys2Proof.Machine
end

section
/-! The transmit arbiter: what it takes, and what the frames it hands to TXD hold (R153, R160, R162, R174, R188, R191). -/
namespace Sys2Proof.Machine

/-! ### What the arbiter takes -/

/-- The oldest unsent entry is the first behind sent ones alone (R153). -/
theorem takeUnsent_append {before after : List Entry} {e : Entry} (hsent : ∀ x ∈ before, x.sent = true)
    (he : e.sent = false) :
    takeUnsent (before ++ e :: after) = some (e, before ++ { e with sent := true } :: after) := by
  induction before with
  | nil => exact if_neg (Bool.eq_false_iff.mp he)
  | cons x rest ih =>
    obtain ⟨hx, hrest⟩ := List.forall_mem_cons.mp hsent
    rw [List.cons_append, takeUnsent, if_pos hx, ih hrest]
    rfl

section
variable {s : State}

theorem State.transmit_notice {n : Notice} {rest : List Notice} (h : s.hasFrame = true) (hn : s.link.notices = n :: rest) :
    s.transmit = ({ s with link := { s.link with notices := rest } }).send n.frame := by
  rw [State.transmit, h, hn]
  rfl

theorem State.transmit_reply {o : Outgoing} {rest : List Outgoing} (h : s.hasFrame = true) (hn : s.link.notices = [])
    (hr : s.link.replies = o :: rest) :
    s.transmit = (({ s with link := { s.link with replies := rest } }).send o.reply.frame).replyTaken o := by
  rw [State.transmit, h, hn, hr]
  rfl

theorem State.transmit_event {e : Entry} {queue : List Entry} (h : s.hasFrame = true) (hn : s.link.notices = [])
    (hr : s.link.replies = []) (he : takeUnsent s.events.queue = some (e, queue)) :
    s.transmit = ({ s with events := { s.events with queue := queue } }).send e.frame := by
  rw [State.transmit, h, hn, hr]
  dsimp only
  rw [he]
  rfl

/-- An immediate reply that does not end the part's work frees a place for the dispatcher (R167, R184). -/
theorem State.replyTaken_immediate {r : Reply} (h : ¬(s.resetPart = .executed ∧ r.kind = 0x85 ∧ r.status = .ok)) :
    s.replyTaken (.immediate r) = s.pump := if_neg h

/-- Periods of the base clock neither give the arbiter a frame nor take one from it (R174). -/
theorem State.afterPeriods_hasFrame (s : State) (d : Nat) : (s.afterPeriods d).hasFrame = s.hasFrame := by
  simp [State.hasFrame]

/-- A frame is taken when there is one (R174). -/
theorem State.dueAfter_transmitNextFrame {d : Nat} (h : s.dueAfter .transmitNextFrame d) :
    (s.afterPeriods d).hasFrame = true := by
  obtain ⟨hdue, -⟩ := h
  rw [State.afterPeriods_hasFrame]
  by_contra hnone
  exact absurd ((if_neg hnone).symm.trans hdue) nofun

end

/-- What TRANSMIT_NEXT_FRAME does, by what waits (R153, R167, R172, R174, R184). -/
theorem exec_transmitNextFrame {s : State} {d : Nat} (hdue : s.dueAfter .transmitNextFrame d) {t : State}
    (ht : (s.afterPeriods d).transmit = t) : exec .transmitNextFrame s = .next t :=
  congrArg Host.Outcome.next ((State.atDue_of_dueAfter hdue State.transmit).trans ht)

/-! ### What the frames hold -/

/-- A byte of one flag (R186). -/
theorem flagByte_single (a : Bool) : flagByte [a] = u8 a.toNat := by cases a <;> rfl

/-- The options of Track Started are one flag, LATE (R149, R191). -/
theorem Event.bytes_trackStarted (t : TrackId) (p : PageId) (start : Stamp) (late : Bool) :
    (Event.trackStarted t p start late).bytes = u8 0x01 ++ u8 t.val ++ u8 p.val ++ le48 start ++ u8 late.toNat := by
  rw [← flagByte_single]
  rfl

/-- The status byte holds the status code in bits 0 to 3 and a gate set in bits 4 to 7 (R188). -/
theorem gates_append_code (gates : TriggerSet) (code : BitVec 4) :
    (gates ++ code : BitVec 8) = BitVec.ofNat 8 (code.toNat + 16 * gates.toNat) := by
  refine BitVec.eq_of_toNat_eq ?_
  rw [BitVec.toNat_append, BitVec.toNat_ofNat, ← Nat.shiftLeft_add_eq_or_of_lt code.isLt, Nat.shiftLeft_eq]
  have hgates := gates.isLt
  have hcode := code.isLt
  omega

/-- Ten bits for each of n bytes, in base clock periods (R160). -/
theorem byteTimes_eq (rate : BitVec 2) (n : Nat) :
    byteTimes rate n = (n * 10 * 100000000 + (baud rate - 1)) / baud rate := by
  rw [byteTimes, Nat.mul_assoc n]

theorem State.send_eq (s : State) (f : Frame) :
    s.send f = { s with link := { s.link with
      txd := some ⟨f.bytes, (f.bytes.length * 10 * 100000000 + (baud s.linkRate - 1)) / baud s.linkRate⟩ } } := by
  rw [State.send, byteTimes_eq]

/-- Settles O16: the arbiter by what waits, and the frames of an entry, a notice and a reply, as they are written. -/
theorem arbiterTakesNoticesRepliesEvents : Obligations.ArbiterTakesNoticesRepliesEvents := by
  unfold Obligations.ArbiterTakesNoticesRepliesEvents
  refine ⟨fun s d hdue => ?_, fun e => ?_, by decide, fun cause rate session stamp => ⟨rfl, rfl⟩, fun r => ?_,
    fun s f => ⟨rfl, s.send_eq f⟩⟩
  · have hframe := State.dueAfter_transmitNextFrame hdue
    rw [← State.afterPeriods_link_notices s d, ← State.afterPeriods_link_replies s d, ← State.afterPeriods_events s d,
      ← State.afterPeriods_resetPart s d]
    refine ⟨fun n rest hn => exec_transmitNextFrame hdue (State.transmit_notice hframe hn), fun r keep rest hn hr => ?_,
      fun r rest hn hr hreset => ?_, fun before e after hn hr hq hsent he => ?_⟩
    · exact exec_transmitNextFrame hdue (State.transmit_reply hframe hn hr)
    · refine exec_transmitNextFrame hdue ((State.transmit_reply hframe hn hr).trans ?_)
      exact State.replyTaken_immediate hreset
    · refine exec_transmitNextFrame hdue (State.transmit_event hframe hn hr ?_)
      rw [hq, takeUnsent_append hsent he]
  · obtain ⟨seq, event, sent⟩ := e
    cases event with
    | trackStarted t p start late =>
      exact congrArg (fun bytes => Frame.mk 0xE0 0 (le16 seq ++ bytes)) (Event.bytes_trackStarted t p start late)
    | _ => rfl
  · obtain ⟨kind, tag, status, gates, fields⟩ := r
    cases status <;> exact congrArg (fun b => Frame.mk kind tag (b :: fields)) (gates_append_code gates _)

end Sys2Proof.Machine
end

section
/-! The reply cache, the reply transmit buffer and the deferred request slots (R167, R171, R172, R174). -/
namespace Sys2Proof.Machine

section
variable {s : State}

/-! ### The cache -/

/-- A reply with tag 0, one that says WINDOW_FULL and one produced outside a session are not stored (R171). -/
theorem State.cacheReply_unstored {r : Reply} (h : r.tag = 0 ∨ r.status = .windowFull ∨ s.isOpen = false) :
    s.cacheReply r = s := by
  refine if_neg fun ⟨htag, hstatus, hopen⟩ => ?_
  rcases h with h | h | h
  · exact htag h
  · exact hstatus h
  · exact Bool.eq_false_iff.mp h hopen

/-- A stored reply is the newest of the cache, which keeps at most 8 (R171). -/
theorem State.cacheReply_stored {r : Reply} (htag : r.tag ≠ 0) (hstatus : r.status ≠ .windowFull)
    (hopen : s.isOpen = true) {n : Nat} (hn : s.link.cache.length + 1 - 8 = n) :
    s.cacheReply r = { s with link := { s.link with cache := s.link.cache.drop n ++ [r] } } := by
  subst hn
  exact if_pos ⟨htag, hstatus, hopen⟩

theorem State.cached_eq_none_iff (tag : Byte) : s.cached tag = none ↔ ∀ q ∈ s.link.cache, q.tag ≠ tag := by
  simp [State.cached]

theorem State.cached_eq_some {tag : Byte} {q : Reply} (h : s.cached tag = some q) : q ∈ s.link.cache ∧ q.tag = tag :=
  ⟨List.mem_of_find?_eq_some h, by simpa using List.find?_some h⟩

/-! ### Deferred requests -/

/-- A tag is in flight while its request awaits a reply, or the composed reply stands untaken (R172). -/
theorem State.inFlight_iff (tag : Byte) :
    s.inFlight tag = true ↔
      (∃ d ∈ s.link.awaiting, d.tag = tag) ∨ ∃ q keep, .deferred q keep ∈ s.link.replies ∧ q.tag = tag := by
  have hcomposed (o : Outgoing) : (!o.isImmediate && o.reply.tag == tag) = true ↔
      ∃ q keep, o = .deferred q keep ∧ q.tag = tag := by
    cases o <;> simp [Outgoing.isImmediate, Outgoing.reply]
  simp only [State.inFlight, Bool.or_eq_true, List.any_eq_true, beq_iff_eq, hcomposed]
  refine or_congr_right ⟨?_, ?_⟩
  · rintro ⟨_, hmem, q, keep, rfl, htag⟩
    exact ⟨q, keep, hmem, htag⟩
  · rintro ⟨q, keep, hmem, htag⟩
    exact ⟨_, hmem, q, keep, rfl, htag⟩

end

/-- Settles O17: a reply by the conditions of its storing, the cache by its search, the tags and slots by what waits. -/
theorem repliesEnterTheCache : Obligations.RepliesEnterTheCache := by
  unfold Obligations.RepliesEnterTheCache
  intro s r
  refine ⟨State.cacheReply_unstored, fun htag hstatus hopen hfull => ?_, fun htag hstatus hopen hroom => ?_, rfl,
    fun tag => ⟨s.cached_eq_none_iff tag, fun q => State.cached_eq_some, s.inFlight_iff tag⟩, ?_⟩
  · exact State.cacheReply_stored htag hstatus hopen (by rw [hfull])
  · exact State.cacheReply_stored htag hstatus hopen (Nat.sub_eq_zero_of_le hroom)
  · rw [State.heldSlots, List.countP_eq_length_filter]
    congr 3
    funext o
    cases o <;> rfl

end Sys2Proof.Machine
end

section
/-! Open Session, Close Session and the keepalive's expiry (R66, R73, R141, R171 to R173, R178, R179, R181). -/
namespace Sys2Proof.Machine

/-! ### Deferred requests at a session end by request -/

theorem reorder_map {α β : Type} (g : α → β) (n code : Nat) (l : List α) :
    reorder n code (l.map g) = (reorder n code l).map g := by
  induction n generalizing code l with
  | zero => rfl
  | succ n ih =>
    simp only [reorder, List.length_map, List.getElem?_map]
    cases l[code % l.length]? with
    | none => rfl
    | some x => simp only [Option.map_some, List.eraseIdx_map, ih, List.map_cons]

/-- A free order is chosen by the places of a list, whatever stands there (log entry 6). -/
theorem freeOrder_map {α β : Type} (g : α → β) (order : Nat → Nat) (n : Nat) (l : List α) :
    freeOrder order n (l.map g) = (freeOrder order n l).map g := by
  match l with
  | [] => rfl
  | [_] => rfl
  | x :: y :: rest => simpa [freeOrder] using reorder_map g (rest.length + 2) (order n) (x :: y :: rest)

/-- The deferred requests of a list, each the one of its owner, are answered ABORTED one after another, and none is left
(R66, R73, R141, R173). -/
theorem State.composeAborted_all (order : List Deferred) {s : State} (hperm : order.Perm s.link.awaiting)
    (hnodup : (s.link.awaiting.map Deferred.owner).Nodup) :
    (order.map Deferred.owner).foldl State.composeAborted s = { s with link := { s.link with
      awaiting := []
      replies := s.link.replies ++ order.map fun d => .deferred (abortedReply d.owner d.tag) true } } := by
  induction order generalizing s with
  | nil =>
    have hnone : s.link.awaiting = [] := hperm.nil_eq.symm
    rw [List.map_nil, List.foldl_nil, List.map_nil, List.append_nil, ← hnone]
  | cons d order ih =>
    obtain ⟨front, back, hsplit⟩ := List.append_of_mem (hperm.subset List.mem_cons_self)
    have hrest : order.Perm (front ++ back) := by
      rw [hsplit] at hperm
      exact (hperm.trans List.perm_middle).cons_inv
    rw [hsplit, (List.perm_middle.map Deferred.owner).nodup_iff, List.map_cons, List.nodup_cons] at hnodup
    obtain ⟨hothers, hnodup⟩ := hnodup
    obtain ⟨⟨-, hanswered⟩, hframe⟩ := s.composeAborted_answered d.owner
    have hlink := hanswered front back d.tag hsplit
      fun e he howner => hothers (List.mem_map.mpr ⟨e, he, howner⟩)
    rw [List.map_cons, List.foldl_cons, ih (by rw [hlink]; exact hrest) (by rw [hlink]; exact hnodup), hframe, hlink]
    simp

/-- At a session end by request each deferred request is answered ABORTED, in some order, and no deferred reply is stored any
more (R172, R173). -/
theorem State.answerDeferred_eq {s : State} (hnodup : (s.link.awaiting.map Deferred.owner).Nodup) :
    s.answerDeferred = { s with
      choices := s.choices + 1
      link := { s.link with
        awaiting := []
        replies := s.link.replies.map Outgoing.ofEndedSession ++
          (freeOrder Config.abortOrder s.choices s.link.awaiting).map
            fun d => .deferred (abortedReply d.owner d.tag) false } } := by
  have hall := State.composeAborted_all (s := { s with choices := s.choices + 1 }) _
    (freeOrder_perm Config.abortOrder s.choices s.link.awaiting) hnodup
  simp only [State.answerDeferred, freeOrder_map, hall, List.map_append, List.map_map]
  rfl

/-- The answers to the deferred requests touch the link unit alone, beside the choice of their order. -/
theorem State.answerDeferred_frame (s : State) :
    s.answerDeferred = { s with choices := s.choices + 1, link := s.answerDeferred.link } := by
  have hcomposed (owners : List Owner) (u : State) :
      owners.foldl State.composeAborted u = { u with link := (owners.foldl State.composeAborted u).link } := by
    induction owners generalizing u with
    | nil => rfl
    | cons o owners ih =>
      obtain ⟨-, hframe⟩ := u.composeAborted_answered o
      rw [List.foldl_cons, ih, hframe]
  rw [State.answerDeferred, hcomposed]

@[simp] theorem State.answerDeferred_session (s : State) : s.answerDeferred.session = s.session := by
  rw [State.answerDeferred_frame]

@[simp] theorem State.answerDeferred_timeline (s : State) : s.answerDeferred.timeline = s.timeline := by
  rw [State.answerDeferred_frame]

@[simp] theorem State.endSession_timeline (s : State) : s.endSession.timeline = s.timeline := by
  rw [State.endSession_frame]

theorem State.endSession_session (s : State) :
    s.endSession.session = { s.session with status := .closed, silence := none } := by
  rw [State.endSession_frame]

theorem State.isOpen_endSession_answerDeferred (s : State) : s.endSession.answerDeferred.isOpen = false := by
  rw [State.isOpen, State.answerDeferred_session, State.endSession_session]
  rfl

/-! ### Open Session -/

/-- A keepalive timeout is 0 or from 10 to 10000 ms (R178). -/
theorem isKeepalive_iff (keepalive : Word16) :
    isKeepalive keepalive = true ↔ keepalive = 0 ∨ (10 ≤ keepalive.toNat ∧ keepalive.toNat ≤ 10000) := by
  simp [isKeepalive]

theorem isRequest_openSession {tag : Byte} {keepalive : Word16} : IsRequest (.openSession tag keepalive) 0x02 tag :=
  ⟨fun _ => rfl, _, rfl, rfl, rfl⟩

section
variable {s : State} {keepalive : Word16}

theorem answerOpenSession_badValue (h : isKeepalive keepalive = false) :
    answerOpenSession keepalive s = (s, .say .badValue (zeros 25)) := by
  rw [answerOpenSession, h]
  rfl

theorem answerOpenSession_closed (h : isKeepalive keepalive = true) (hclosed : s.isOpen = false) :
    answerOpenSession keepalive s = (s.openSession keepalive, .say .ok
      (le16 (nextSession s.session.number) ++ flagByte [false] ++ le16 keepalive ++ le48 s.timeline ++ capacities)) := by
  rw [answerOpenSession, h, hclosed]
  rfl

/-- Over an open session Open Session ends it first and answers its deferred requests (R173, R178). -/
theorem answerOpenSession_open (h : isKeepalive keepalive = true) (hopen : s.isOpen = true) :
    answerOpenSession keepalive s = (s.endSession.answerDeferred.openSession keepalive, .say .ok
      (le16 (nextSession s.session.number) ++ flagByte [true] ++ le16 keepalive ++ le48 s.timeline ++ capacities)) := by
  have hopened (u : State) : (u.openSession keepalive).session.number = nextSession u.session.number ∧
      (u.openSession keepalive).session.keepalive = keepalive ∧ (u.openSession keepalive).timeline = u.timeline :=
    ⟨rfl, rfl, rfl⟩
  obtain ⟨hnumber, hkeepalive, htime⟩ := hopened s.endSession.answerDeferred
  rw [answerOpenSession, h, hopen, if_neg (by decide), if_pos rfl]
  dsimp only
  rw [hnumber, hkeepalive, htime, State.answerDeferred_session, State.endSession_session, State.answerDeferred_timeline,
    State.endSession_timeline]

end

/-- What an accepted Open Session opens (R177, R178, R181). -/
theorem State.openSession_eq (s : State) (keepalive : Word16) :
    s.openSession keepalive = { s with
      session := ⟨.opened, if s.session.number = 0xFFFF then 1 else s.session.number + 1, keepalive,
        if keepalive = 0 then none else some (keepalive.toNat * 100000)⟩
      events := { s.events with next := 1 }
      link := { s.link with tallies := ⟨0, 0, 0, 0⟩ }
      journal := { s.journal with notice := false } } := rfl

theorem State.restartSilence_number (s : State) : s.restartSilence.session.number = s.session.number := by
  unfold State.restartSilence
  split <;> rfl

/-- Settles O6: Open Session by its timeout's range and by whether a session is open. -/
theorem openSessionOpensTheNext : Obligations.OpenSessionOpensTheNext := by
  unfold Obligations.OpenSessionOpensTheNext
  refine ⟨fun s tag keepalive hclosed hx hrange => ?_, fun s tag keepalive hx hrange => ?_,
    fun s tag keepalive hopen hx hrange => ?_⟩
  · have hopens := isRequest_openSession.reply hx (State.restartSilence_closed hclosed)
      (answerOpenSession_closed ((isKeepalive_iff keepalive).mpr hrange) hclosed)
    rwa [State.openSession_eq] at hopens
  · refine isRequest_openSession.reply hx rfl (answerOpenSession_badValue ?_)
    rwa [← Bool.not_eq_true, isKeepalive_iff]
  · have hreopens := isRequest_openSession.reply hx rfl
      (answerOpenSession_open ((isKeepalive_iff keepalive).mpr hrange) (s.isOpen_restartSilence.trans hopen))
    rwa [State.openSession_eq, State.answerDeferred_session, State.endSession_session, s.restartSilence_number,
      s.restartSilence_timeline] at hreopens

/-! ### Close Session and the keepalive -/

theorem isRequest_closeSession {tag : Byte} : IsRequest (.closeSession tag) 0x03 tag :=
  ⟨fun _ => rfl, _, rfl, rfl, rfl⟩

theorem answerCloseSession_eq (s : State) :
    answerCloseSession s = (s.endSession.answerDeferred, .reply .ok (le16 s.session.number ++ le48 s.timeline) 0) := rfl

/-- The reply to Close Session is produced outside a session, so it is not stored (R171, R179). -/
theorem State.answered_closed {s : State} (hclosed : s.isOpen = false) (kind tag : Byte) (status : Status)
    (fields : List Byte) : s.answered kind tag status fields = s.pushReply ⟨kind, tag, status, 0, fields⟩ := by
  rw [State.answered, State.cacheReply_unstored (.inr (.inr hclosed))]

/-- What the silence timer's expiry makes of the part whose session it ends (R173, R181). -/
theorem State.loseLink_eq (s : State) :
    s.loseLink = { s.endSession with link := { s.endSession.link with
      awaiting := []
      replies := s.endSession.link.replies.filter Outgoing.isImmediate
      notices := s.endSession.link.notices ++ [.sessionEnded s.session.number s.timeline] } } := by
  simp only [State.loseLink, State.discardDeferred]

/-- Settles O7: Close Session and the silence timer's expiry by what they make of the part, a deferred request by its answer,
and the deferred requests of an ended session one after another. -/
theorem sessionsEndByCloseOrSilence : Obligations.SessionsEndByCloseOrSilence := by
  unfold Obligations.SessionsEndByCloseOrSilence
  refine ⟨fun s tag _ hx => ?_, fun s d hdue => ?_, fun s owner status fields => ?_,
    fun s owner => s.composeAborted_answered owner, fun s hnodup => ?_⟩
  · have hcloses := isRequest_closeSession.reply hx rfl (answerCloseSession_eq _)
    rwa [State.answered_closed (State.isOpen_endSession_answerDeferred _), s.restartSilence_number,
      s.restartSilence_timeline] at hcloses
  · have hexpires : exec .keepaliveExpiry s = .next (s.afterPeriods d).loseLink :=
      congrArg Host.Outcome.next (State.atDue_of_dueAfter hdue State.loseLink)
    rwa [State.loseLink_eq, State.afterPeriods_session_number] at hexpires
  · cases owner <;> exact s.compose_answered _ status fields
  · exact ⟨_, freeOrder_perm Config.abortOrder s.choices s.link.awaiting, State.answerDeferred_eq hnodup⟩

end Sys2Proof.Machine
end

section
/-! Reset Part and the frames it keeps from the dispatcher (R167, R174, R184). -/
namespace Sys2Proof.Machine

/-- When the dispatcher takes a frame (R167, R185). -/
theorem State.canTake_iff (s : State) :
    s.canTake = true ↔ s.phase = .running ∧ s.resetPart = .none ∧ s.buffered < 4 := by
  simp only [State.canTake, Bool.and_eq_true, decide_eq_true_eq, and_assoc]
  rfl

theorem isRequest_resetPart {tag : Byte} : IsRequest (.resetPart tag) 0x05 tag :=
  ⟨fun _ => rfl, _, rfl, rfl, rfl⟩

theorem answerResetPart_eq (s : State) : answerResetPart s = ({ s with resetPart := .executed }, .reply .ok [] 0) := rfl

/-- When the arbiter takes the reply of an executed Reset Part, its work is done (R174, R184). -/
theorem State.replyTaken_reset {s : State} (h : s.resetPart = .executed) (tag : Byte) :
    s.replyTaken (.immediate ⟨0x85, tag, .ok, 0, []⟩) = { s with resetPart := .replyTaken } := if_pos ⟨h, rfl, rfl⟩

/-- The frame of the reply to Reset Part holds its status byte alone (R188). -/
theorem Reply.frame_reset (tag : Byte) : Reply.frame ⟨0x85, tag, .ok, 0, []⟩ = ⟨0x85, tag, [0]⟩ :=
  congrArg (fun b => Frame.mk 0x85 tag [b]) (gates_append_code 0 0)

/-- After the reply to Reset Part the arbiter takes no frame (R174). -/
theorem State.hasFrame_replyTaken {s : State} (h : s.resetPart = .replyTaken) : s.hasFrame = false := by
  simp [State.hasFrame, h]

/-- Settles O10: Reset Part by its answer, the dispatcher by its condition, the arbiter by the reply it takes. -/
theorem resetPartWaitsForItsReply : Obligations.ResetPartWaitsForItsReply := by
  unfold Obligations.ResetPartWaitsForItsReply
  refine ⟨fun s tag hx => isRequest_resetPart.reply hx rfl (answerResetPart_eq _), fun s hreset => ?_,
    fun s d tag rest hdue hreset hn hr => ⟨?_, State.hasFrame_replyTaken rfl⟩⟩
  · rw [← Bool.not_eq_true, State.canTake_iff]
    exact fun ⟨_, hnone, _⟩ => hreset hnone
  · rw [← State.afterPeriods_link_notices s d] at hn
    rw [← State.afterPeriods_link_replies s d] at hr
    rw [← State.afterPeriods_resetPart s d] at hreset
    refine exec_transmitNextFrame hdue ((State.transmit_reply (State.dueAfter_transmitNextFrame hdue) hn hr).trans ?_)
    rw [State.replyTaken_reset (by exact hreset), Outgoing.reply, Reply.frame_reset]
    rfl

end Sys2Proof.Machine
end

section
/-! The frame assembler state by state, a byte received on RXD, and the link faults (R157, R161, R163, R164, R166, R185). -/
namespace Sys2Proof.Machine

/-! ### What the assembler does with the FIFO, by its state (R163, R164) -/

section
variable {s : State} {sync len : Byte} {rest : List Byte}

theorem State.pumpFor_hunt_nil (n : Nat) (ha : s.link.assembler = .hunt) (hf : s.link.fifo = []) :
    State.pumpFor n s = s := by
  cases n with
  | zero => rfl
  | succ n => rw [State.pumpFor, ha, hf]

theorem State.pumpFor_hunt_sync (n : Nat) (ha : s.link.assembler = .hunt) (hf : s.link.fifo = 0xA5 :: rest) :
    State.pumpFor (n + 1) s = State.pumpFor n (s.assemble (0xA5 :: rest) .length) := by
  rw [State.pumpFor, ha, hf]
  exact if_pos rfl

theorem State.pumpFor_hunt_other (n : Nat) (ha : s.link.assembler = .hunt) {b : Byte} (hf : s.link.fifo = b :: rest)
    (hb : b ≠ 0xA5) : State.pumpFor (n + 1) s = State.pumpFor n (s.assemble rest .hunt) := by
  rw [State.pumpFor, ha, hf]
  exact if_neg hb

theorem State.pumpFor_length_wait (n : Nat) (ha : s.link.assembler = .length) (hf : s.link.fifo = [sync]) :
    State.pumpFor n s = s := by
  cases n with
  | zero => rfl
  | succ n => rw [State.pumpFor, ha, hf]

theorem State.pumpFor_length_accepted (n : Nat) (ha : s.link.assembler = .length) (hf : s.link.fifo = sync :: len :: rest)
    (hlen : 2 ≤ len.toNat ∧ len.toNat ≤ 242) :
    State.pumpFor (n + 1) s = State.pumpFor n (s.assemble (sync :: len :: rest) .body) := by
  rw [State.pumpFor, ha, hf]
  exact if_pos hlen

theorem State.pumpFor_length_rejected (n : Nat) (ha : s.link.assembler = .length) (hf : s.link.fifo = sync :: len :: rest)
    (hlen : len.toNat < 2 ∨ 242 < len.toNat) :
    State.pumpFor (n + 1) s = State.pumpFor n ((s.assemble rest .hunt).linkFault .length) := by
  rw [State.pumpFor, ha, hf]
  exact if_neg (by omega)

theorem State.pumpFor_body_wait (n : Nat) (ha : s.link.assembler = .body) (hf : s.link.fifo = sync :: len :: rest)
    (hfew : rest.length < len.toNat + 2) : State.pumpFor n s = s := by
  cases n with
  | zero => rfl
  | succ n =>
    rw [State.pumpFor, ha, hf]
    exact if_pos hfew

theorem State.pumpFor_body_good (n : Nat) (ha : s.link.assembler = .body) (hf : s.link.fifo = sync :: len :: rest)
    (hall : len.toNat + 2 ≤ rest.length) (hcrc : checkPasses len rest = true) :
    State.pumpFor (n + 1) s = State.pumpFor n (s.assemble (sync :: len :: rest) .waiting).restartSilence := by
  rw [State.pumpFor, ha, hf]
  exact (if_neg (Nat.not_lt.mpr hall)).trans (if_pos hcrc)

theorem State.pumpFor_body_bad (n : Nat) (ha : s.link.assembler = .body) (hf : s.link.fifo = sync :: len :: rest)
    (hall : len.toNat + 2 ≤ rest.length) (hcrc : checkPasses len rest = false) :
    State.pumpFor (n + 1) s = State.pumpFor n ((s.assemble (len :: rest) .hunt).linkFault .crc) := by
  rw [State.pumpFor, ha, hf]
  exact (if_neg (Nat.not_lt.mpr hall)).trans (if_neg (Bool.eq_false_iff.mp hcrc))

theorem State.pumpFor_waiting_taken (n : Nat) (ha : s.link.assembler = .waiting) (hf : s.link.fifo = sync :: len :: rest)
    (htake : s.canTake = true) :
    State.pumpFor (n + 1) s = State.pumpFor n
      ((s.assemble (rest.drop (len.toNat + 2)) .hunt).dispatch (frameAt len rest) (frameOwner (frameAt len rest))) := by
  rw [State.pumpFor, ha, hf]
  exact if_pos htake

/-- A good frame waits while the dispatcher may not take it (R167). -/
theorem State.pumpFor_waiting_stalled (n : Nat) (ha : s.link.assembler = .waiting) (hstall : s.canTake = false) :
    State.pumpFor n s = s := by
  cases n with
  | zero => rfl
  | succ n =>
    rw [State.pumpFor, ha]
    dsimp only
    split
    · exact if_neg (Bool.eq_false_iff.mp hstall)
    · rfl

end

/-! ### A byte received (R161, R185) -/

/-- The link unit that has received a byte and not dropped it: no run of dropped bytes, the gap timer at its start. -/
def State.heard (s : State) : State := { s with link := { s.link with dropping := false, sinceByte := 0 } }

section
variable {s : State}

theorem State.receiveByte_discarded (h : s.phase ≠ .running) (b : Byte) : s.receiveByte b = s := if_pos h

/-- A byte dropped at a full FIFO counts OVERRUN if it begins a run (R161). -/
theorem State.receiveByte_full (hrun : s.phase = .running) (hfull : 1024 ≤ s.link.fifo.length) (b : Byte) :
    s.receiveByte b =
      if s.link.dropping then { s with link := { s.link with dropping := true, sinceByte := 0 } }
      else ({ s with link := { s.link with dropping := true, sinceByte := 0 } }).linkFault .overrun :=
  (if_neg (not_not_intro hrun)).trans (if_pos hfull)

/-- A byte that finds room stands behind the bytes already there, and the assembler goes on (R161, R163). -/
theorem State.receiveByte_room (hrun : s.phase = .running) (hroom : s.link.fifo.length < 1024) (b : Byte) :
    s.receiveByte b = (s.heard.assemble (s.link.fifo ++ [b]) s.link.assembler).pump :=
  (if_neg (not_not_intro hrun)).trans (if_neg (Nat.not_le.mpr hroom))

/-- In HUNT with an empty FIFO a byte is passed over unless it is a SYNC (R163). -/
theorem State.receiveByte_hunt (hrun : s.phase = .running) (hf : s.link.fifo = []) (ha : s.link.assembler = .hunt)
    (b : Byte) :
    s.receiveByte b = if b = 0xA5 then s.heard.assemble [0xA5] .length else s.heard.assemble [] .hunt := by
  rw [State.receiveByte_room hrun (by simp [hf]), hf, ha, List.nil_append]
  split
  · next hsync =>
    subst hsync
    exact (State.pumpFor_hunt_sync _ rfl rfl).trans (State.pumpFor_length_wait _ rfl rfl)
  · next hother =>
    exact (State.pumpFor_hunt_other _ rfl rfl hother).trans (State.pumpFor_hunt_nil _ rfl rfl)

end

/-- Settles O14: a byte by the FIFO and the assembler, the two rejections by the assembler's state, a fault by the session and
the event queue. -/
theorem receivedBytesAreTakenOrDropped : Obligations.ReceivedBytesAreTakenOrDropped := by
  unfold Obligations.ReceivedBytesAreTakenOrDropped
  refine ⟨fun s b => ⟨fun hidle => ?_, fun hrun => ⟨fun hfull => ?_, fun hf ha => ?_⟩⟩,
    fun n s sync len rest ha hf hlen => State.pumpFor_length_rejected n ha hf hlen,
    fun n s sync len rest ha hf hall hcrc => State.pumpFor_body_bad n ha hf hall (beq_false_of_ne hcrc),
    fun s kind => ?_⟩
  · exact congrArg Host.Outcome.next (State.receiveByte_discarded hidle b)
  · exact congrArg Host.Outcome.next (State.receiveByte_full hrun hfull b)
  · refine congrArg Host.Outcome.next ((State.receiveByte_hunt hrun hf ha b).trans ?_)
    split <;> rfl
  · intro x u counted becomes
    have hcounted : s.link.tallies.count kind = counted := by cases kind <;> rfl
    have becomes_of {v : State} (h : s.linkFault kind = v) {tallies : Tallies} {events : EventUnit}
        (hv : v = { s with link := { s.link with tallies := tallies }, events := events }) : becomes tallies events :=
      h.trans hv
    refine ⟨fun hheld => becomes_of (State.linkFault_unreported hheld kind) (by rw [hcounted]), fun hopen hnone => ?_⟩
    have hreported := State.linkFault_reported hopen hnone kind
    rw [hcounted] at hreported
    have stored (hroom : u.hasRoom = true) := hreported.trans (State.reportLinkFault_stored hopen hroom)
    have lost (hfull : u.hasRoom = false) := hreported.trans (State.reportLinkFault_lost hopen hfull)
    refine ⟨fun hordinary hfew => becomes_of (stored (EventUnit.hasRoom_iff.mpr ⟨hordinary, hfew⟩)) rfl,
      fun hordinary hmany => becomes_of (lost (EventUnit.hasRoom_eq_false_iff.mpr (.inr hmany))) ?_,
      fun ordinary seq n sent hordinary hq => ?_⟩
    · rw [EventUnit.store_full hordinary hmany]
    · have hentry : ⟨seq, .eventsLost n, sent⟩ ∈ u.queue := hq ▸ List.mem_append_right _ List.mem_cons_self
      have hlost := lost (EventUnit.hasRoom_eq_false_iff.mpr (.inl ⟨_, hentry, rfl⟩))
      rw [EventUnit.store_lost hordinary hq] at hlost
      refine ⟨fun hbelow => becomes_of hlost (by rw [if_pos hbelow]), fun hmost => becomes_of hlost ?_⟩
      rw [if_neg (Nat.not_lt.mpr hmost), ← hq]

end Sys2Proof.Machine
end

section
/-! The bytes of a frame behind its SYNC (R162). -/
namespace Sys2Proof

/-- The LEN of a frame: it counts the kind, the tag and the payload (R162). -/
def Frame.len (f : Frame) : Byte := BitVec.ofNat 8 (f.payload.length + 2)

/-- What stands behind the LEN of a frame: its kind, tag and payload, and the CRC (R162). -/
def Frame.tail (f : Frame) : List Byte :=
  f.kind :: f.tag :: f.payload ++ le16 (crc16 (f.len :: f.kind :: f.tag :: f.payload))

theorem Frame.bytes_eq (f : Frame) : f.bytes = 0xA5 :: f.len :: f.tail := rfl

theorem Frame.length_tail (f : Frame) : f.tail.length = f.payload.length + 4 := by
  simp [Frame.tail]

theorem Frame.take_tail (f : Frame) : f.tail.take (f.payload.length + 2) = f.kind :: f.tag :: f.payload :=
  List.take_left (l₁ := f.kind :: f.tag :: f.payload)

theorem Frame.drop_tail (f : Frame) :
    f.tail.drop (f.payload.length + 2) = le16 (crc16 (f.len :: f.kind :: f.tag :: f.payload)) :=
  List.drop_left (l₁ := f.kind :: f.tag :: f.payload)

section
variable {f : Frame} (h : f.payload.length ≤ 240)
include h

theorem Frame.len_toNat : f.len.toNat = f.payload.length + 2 := by
  rw [Frame.len, BitVec.toNat_ofNat]
  exact Nat.mod_eq_of_lt (by omega)

/-- The CRC that a frame carries is that of its bytes (R162, R164). -/
theorem Frame.checkPasses_tail : Machine.checkPasses f.len f.tail = true := by
  rw [Machine.checkPasses, Frame.len_toNat h, f.take_tail, f.drop_tail]
  exact beq_self_eq_true _

/-- What the dispatcher reads in the bytes of a frame is that frame (R162, R167). -/
theorem Frame.frameAt_tail : Machine.frameAt f.len f.tail = f := by
  rw [Machine.frameAt, Frame.len_toNat h, f.take_tail]
  rfl

end

end Sys2Proof
end

section
/-! The bytes of a frame on their way through the assembler (R161 to R164, R167, R181). -/
namespace Sys2Proof.Machine

/-! ### The silence timer (R181) -/

theorem State.restartSilence_open {s : State} (h : s.session.status = .opened) :
    s.restartSilence = { s with session := { s.session with
      silence := if s.session.keepalive = 0 then none else some (s.session.keepalive.toNat * 100000) } } :=
  if_pos (decide_eq_true h)

theorem State.restartSilence_assemble (s : State) (fifo : List Byte) (a : Assembler) :
    (s.assemble fifo a).restartSilence = s.restartSilence.assemble fifo a := by
  unfold State.restartSilence
  rw [show (s.assemble fifo a).isOpen = s.isOpen from rfl]
  split <;> rfl

/-! ### What the receiver does leaves the dispatcher's condition as it is (R167) -/

theorem State.canTake_congr {s s' : State} (hphase : s'.phase = s.phase) (hreset : s'.resetPart = s.resetPart)
    (hreplies : s'.link.replies = s.link.replies) : s'.canTake = s.canTake := by
  rw [State.canTake, State.canTake, State.buffered, State.buffered, hphase, hreset, hreplies]

theorem State.canTake_restartSilence (s : State) : s.restartSilence.canTake = s.canTake :=
  State.canTake_congr s.restartSilence_phase s.restartSilence_resetPart (by rw [s.restartSilence_link])

/-! ### Bytes that the assembler only gathers -/

/-- Bytes behind each of which the assembler goes no further stand in the FIFO behind those already there (R161). -/
theorem State.receive_gathered {u : State} (hrun : u.phase = .running) (hheard : u.heard = u) {a : Assembler}
    (bytes fifo : List Byte) (hroom : fifo.length + bytes.length ≤ 1024)
    (hstops : ∀ front, front ≠ [] → front <+: bytes →
      (u.assemble (fifo ++ front) a).pump = u.assemble (fifo ++ front) a) :
    bytes.foldl State.receiveByte (u.assemble fifo a) = u.assemble (fifo ++ bytes) a := by
  induction bytes generalizing fifo with
  | nil => rw [List.append_nil, List.foldl_nil]
  | cons b bytes ih =>
    rw [List.length_cons] at hroom
    have hb : (u.assemble fifo a).receiveByte b = u.assemble (fifo ++ [b]) a := by
      have hfew : fifo.length < 1024 := by omega
      rw [State.receiveByte_room (s := u.assemble fifo a) hrun hfew]
      calc (u.heard.assemble (fifo ++ [b]) a).pump
        _ = (u.assemble (fifo ++ [b]) a).pump := by rw [hheard]
        _ = u.assemble (fifo ++ [b]) a := hstops [b] (List.cons_ne_nil b []) ⟨bytes, rfl⟩
    rw [List.foldl_cons, hb, ih (fifo ++ [b]) (by rw [List.length_append, List.length_singleton]; omega), List.append_assoc]
    · rfl
    · intro front _ hfront
      rw [List.append_assoc]
      exact hstops (b :: front) (List.cons_ne_nil b front) (List.cons_prefix_cons.mpr ⟨rfl, hfront⟩)

/-- A first byte that finds room ends a run of dropped bytes and starts the gap timer (R161, R165). -/
theorem State.receive_heard {s : State} (hrun : s.phase = .running) (hroom : s.link.fifo.length < 1024) {bytes : List Byte}
    (hbytes : bytes ≠ []) : bytes.foldl State.receiveByte s = bytes.foldl State.receiveByte s.heard := by
  cases bytes with
  | nil => exact absurd rfl hbytes
  | cons b bytes =>
    rw [List.foldl_cons, List.foldl_cons, State.receiveByte_room hrun hroom, State.receiveByte_room (s := s.heard) hrun hroom]
    rfl

/-- While a good frame waits for a dispatcher that may not take it, the bytes received stand in the FIFO (R161, R167). -/
theorem State.receive_stalled {s : State} (hrun : s.phase = .running) (hstall : s.canTake = false)
    (ha : s.link.assembler = .waiting) {bytes : List Byte} (hbytes : bytes ≠ [])
    (hroom : s.link.fifo.length + bytes.length ≤ 1024) :
    bytes.foldl State.receiveByte s = s.heard.assemble (s.link.fifo ++ bytes) .waiting := by
  have hpos := List.length_pos_iff.mpr hbytes
  have hself : s.heard = s.heard.assemble s.link.fifo .waiting := by
    rw [← ha]
    rfl
  rw [State.receive_heard hrun (by omega) hbytes, hself]
  exact State.receive_gathered (u := s.heard) hrun rfl bytes s.link.fifo hroom
    fun front _ _ => State.pumpFor_waiting_stalled _ rfl hstall

/-! ### The bytes of a frame in an empty assembler -/

/-- The bytes behind LEN bring the assembler from BODY to a good frame that waits, which restarts the silence timer, and the
dispatcher then goes on (R163, R164, R181). -/
theorem State.receive_tail {u : State} (hrun : u.phase = .running) (hheard : u.heard = u) {f : Frame}
    (h : f.payload.length ≤ 240) :
    ∃ n, f.tail.foldl State.receiveByte (u.assemble [0xA5, f.len] .body) =
      State.pumpFor (n + 1) (u.restartSilence.assemble f.bytes .waiting) := by
  have hlen := Frame.len_toNat h
  have htail := f.length_tail
  obtain ⟨front, last, hsplit⟩ : ∃ front last, f.tail = front ++ [last] :=
    ⟨_, _, (List.dropLast_append_getLast (List.ne_nil_of_length_pos (by omega))).symm⟩
  rw [hsplit, List.length_append, List.length_singleton] at htail
  have hgathered : front.foldl State.receiveByte (u.assemble [0xA5, f.len] .body) =
      u.assemble (0xA5 :: f.len :: front) .body := by
    refine State.receive_gathered hrun hheard front [0xA5, f.len] (show 2 + front.length ≤ 1024 by omega)
      fun part _ hpart => ?_
    have hshort : part.length < f.len.toNat + 2 := by
      have := hpart.length_le
      omega
    exact State.pumpFor_body_wait _ rfl rfl hshort
  have hfew : (0xA5 :: f.len :: front).length < 1024 := by simp only [List.length_cons]; omega
  have hfifo : 0xA5 :: f.len :: front ++ [last] = f.bytes := by
    rw [f.bytes_eq, hsplit]
    rfl
  rw [hsplit, List.foldl_append, hgathered, List.foldl_cons, List.foldl_nil,
    State.receiveByte_room (s := u.assemble (0xA5 :: f.len :: front) .body) hrun hfew]
  have hall : f.len.toNat + 2 ≤ f.tail.length := by rw [hlen, f.length_tail]
  refine ⟨4 * f.bytes.length + 2, ?_⟩
  calc (u.heard.assemble (0xA5 :: f.len :: front ++ [last]) .body).pump
    _ = (u.heard.assemble f.bytes .body).pump := by rw [hfifo]
    _ = (u.assemble f.bytes .body).pump := by rw [hheard]
    _ = State.pumpFor (4 * f.bytes.length + 3) ((u.assemble f.bytes .body).assemble f.bytes .waiting).restartSilence :=
      State.pumpFor_body_good _ rfl f.bytes_eq hall (Frame.checkPasses_tail h)
    _ = State.pumpFor (4 * f.bytes.length + 3) (u.restartSilence.assemble f.bytes .waiting) := by
      rw [← State.restartSilence_assemble]
      rfl

/-- The bytes of a frame, received by an empty assembler, become a good frame that waits (R161 to R164, R181). -/
theorem State.receive_frame {s : State} (hrun : s.phase = .running) (hf : s.link.fifo = []) (ha : s.link.assembler = .hunt)
    {f : Frame} (h : f.payload.length ≤ 240) :
    ∃ n, f.bytes.foldl State.receiveByte s =
      State.pumpFor (n + 1) (s.heard.restartSilence.assemble f.bytes .waiting) := by
  have hlen := Frame.len_toNat h
  have hsync : s.receiveByte 0xA5 = s.heard.assemble [0xA5] .length := State.receiveByte_hunt hrun hf ha 0xA5
  have hfew : ([] : List Byte).length < f.len.toNat + 2 := Nat.zero_lt_of_ne_zero (by omega)
  have hbody : (s.heard.assemble [0xA5] .length).receiveByte f.len = s.heard.assemble [0xA5, f.len] .body :=
    calc (s.heard.assemble [0xA5] .length).receiveByte f.len
      _ = (s.heard.assemble [0xA5, f.len] .length).pump :=
        State.receiveByte_room (s := s.heard.assemble [0xA5] .length) hrun (by decide : [(0xA5 : Byte)].length < 1024) _
      _ = State.pumpFor 11 (s.heard.assemble [0xA5, f.len] .body) :=
        State.pumpFor_length_accepted 11 rfl rfl (by omega)
      _ = s.heard.assemble [0xA5, f.len] .body := State.pumpFor_body_wait 11 rfl rfl hfew
  obtain ⟨n, hreceived⟩ := State.receive_tail (u := s.heard) hrun rfl h
  refine ⟨n, ?_⟩
  rw [← hreceived, ← hbody, ← hsync, f.bytes_eq, List.foldl_cons, List.foldl_cons]

end Sys2Proof.Machine
end

section
/-! The dispatcher's first five steps, and the frames that do not reach it at once (R161, R167 to R169, R171, R185). -/
namespace Sys2Proof.Machine

/-! ### The first five steps of R168 -/

theorem admittedClosed_iff (kind : Byte) :
    admittedClosed kind = true ↔ kind ∈ [(0x01 : Byte), 0x02, 0x04, 0x05] := by
  simp [admittedClosed, or_assoc]

section
variable {s : State} {f : Frame} (own : State → State × Answer)

theorem State.dispatch_badKind (hk : isRequestKind f.kind = false) :
    s.dispatch f own = s.pushReply ⟨0xFF, f.tag, .badKind, 0, [f.kind]⟩ := by
  rw [State.dispatch, hk]
  rfl

theorem State.dispatch_badLength (hk : isRequestKind f.kind = true) (hl : lengthFits f.kind f.payload.length = false) :
    s.dispatch f own = s.pushReply (statusOnly f .badLength) := by
  rw [State.dispatch, hk, hl]
  rfl

section
variable (hk : isRequestKind f.kind = true) (hl : lengthFits f.kind f.payload.length = true)
include hk hl

theorem State.dispatch_noSession (hclosed : s.isOpen = false) (hkind : admittedClosed f.kind = false) :
    s.dispatch f own = s.pushReply (statusOnly f .noSession) := by
  rw [State.dispatch, hk, hl, hclosed, hkind]
  rfl

variable (ha : s.isOpen = true ∨ admittedClosed f.kind = true) (htag : f.tag ≠ 0)
include ha htag

/-- A tag other than 0 that the session admits is looked up among the cached replies and those in flight (R168 steps 4, 5). -/
theorem State.dispatch_tagged :
    s.dispatch f own = match s.cached f.tag with
      | some r => s.pushReply r
      | none => if s.inFlight f.tag then s.pushReply (statusOnly f .inProgress) else s.execute f own := by
  have hadmitted : (!s.isOpen && !admittedClosed f.kind) = false := by rcases ha with ha | ha <;> simp [ha]
  rw [State.dispatch, hk, hl, hadmitted]
  exact if_neg htag

theorem State.dispatch_cached {r : Reply} (hcached : s.cached f.tag = some r) : s.dispatch f own = s.pushReply r := by
  rw [State.dispatch_tagged own hk hl ha htag, hcached]

theorem State.dispatch_inFlight (hcached : s.cached f.tag = none) (hflight : s.inFlight f.tag = true) :
    s.dispatch f own = s.pushReply (statusOnly f .inProgress) := by
  rw [State.dispatch_tagged own hk hl ha htag, hcached, hflight]
  rfl

end
end

/-! ### A frame that arrives whole (R167, R185) -/

/-- A row that a frame carries is the arrival of that frame (log entry 1). -/
theorem exec_frameArrives {i : Instr} {f : Frame} (h : i.frame = some f) :
    ∃ own, ∀ s, exec i s = .next (s.frameArrives f own) := by
  cases i <;> cases h <;> exact ⟨_, fun _ => rfl⟩

section
variable {s : State} {f : Frame} (own : State → State × Answer)

theorem State.frameArrives_idle (h : s.phase ≠ .running) : s.frameArrives f own = s := if_pos h

theorem State.frameArrives_atOnce (h : s.takesAtOnce = true) : s.frameArrives f own = s.restartSilence.dispatch f own := by
  obtain ⟨htake, -, -⟩ := s.takesAtOnce_iff.mp h
  obtain ⟨hrun, -, -⟩ := s.canTake_iff.mp htake
  rw [State.frameArrives, if_neg (not_not_intro hrun), if_pos h]

theorem State.frameArrives_bytes (hrun : s.phase = .running) (h : s.takesAtOnce = false) :
    s.frameArrives f own = f.bytes.foldl State.receiveByte s := by
  rw [State.frameArrives, if_neg (not_not_intro hrun), if_neg (Bool.eq_false_iff.mp h)]

theorem State.takesAtOnce_of_stalled (h : s.canTake = false) : s.takesAtOnce = false := by
  rw [State.takesAtOnce, h]
  rfl

/-- A frame received while the dispatcher may not take it waits in the FIFO; a good frame it is, so the silence timer restarts
(R164, R167). -/
theorem State.receive_frame_stalled (hrun : s.phase = .running) (hstall : s.canTake = false) (ha : s.link.assembler = .hunt)
    (hf : s.link.fifo = []) (hlen : f.payload.length ≤ 240) :
    f.bytes.foldl State.receiveByte s = (s.heard.assemble f.bytes .waiting).restartSilence := by
  obtain ⟨n, hreceived⟩ := State.receive_frame hrun hf ha hlen
  have hstall' : (s.heard.restartSilence.assemble f.bytes .waiting).canTake = false :=
    (State.canTake_restartSilence s.heard).trans hstall
  rw [hreceived, State.pumpFor_waiting_stalled _ rfl hstall', State.restartSilence_assemble]

end

/-- Settles O11: the dispatcher step by step, and a frame that arrives by whether the dispatcher may take it. -/
theorem framesAnsweredWithoutExecution : Obligations.FramesAnsweredWithoutExecution := by
  unfold Obligations.FramesAnsweredWithoutExecution
  refine ⟨fun s i f hi hk hat => ?_, fun s tag kind payload hat hk => ?_, fun s => ⟨?_, s.takesAtOnce_iff⟩,
    fun s i f hi => ?_⟩
  · obtain ⟨own, hexec⟩ := exec_frameArrives hi
    have dispatched {t : State} (h : s.restartSilence.dispatch f own = t) : exec i s = .next t := by
      rw [hexec, State.frameArrives_atOnce own hat, h]
    refine ⟨fun hl => dispatched (State.dispatch_badLength own hk hl), fun hl => ⟨fun hclosed hkind => ?_,
      fun hadmits htag => ?_⟩⟩
    · rw [← admittedClosed_iff, Bool.not_eq_true] at hkind
      exact dispatched (State.dispatch_noSession own hk hl (s.isOpen_restartSilence.trans hclosed) hkind)
    · rw [← admittedClosed_iff, ← s.isOpen_restartSilence] at hadmits
      have hcached : s.restartSilence.cached f.tag = s.cached f.tag := by rw [State.cached, s.restartSilence_link]; rfl
      have hflight : s.restartSilence.inFlight f.tag = s.inFlight f.tag := by rw [State.inFlight, s.restartSilence_link]; rfl
      rw [← hcached, ← hflight]
      exact ⟨fun r h => dispatched (State.dispatch_cached own hk hl hadmits htag h),
        fun hnone h => dispatched (State.dispatch_inFlight own hk hl hadmits htag hnone h)⟩
  · exact congrArg Host.Outcome.next ((State.frameArrives_atOnce _ hat).trans (State.dispatch_badKind _ hk))
  · have hbuffered : s.buffered = (s.link.replies.filter Outgoing.isImmediate).length := List.countP_eq_length_filter ..
    have htake := s.canTake_iff
    rwa [hbuffered] at htake
  · obtain ⟨own, hexec⟩ := exec_frameArrives hi
    have arrives {t : State} (h : s.frameArrives f own = t) : exec i s = .next t := by rw [hexec, h]
    refine ⟨fun hidle => arrives (State.frameArrives_idle own hidle),
      fun hrun hlater => arrives (State.frameArrives_bytes own hrun hlater), fun hrun hstall ha hroom => ?_,
      fun hrun hstall ha hf hlen => ?_⟩
    · have hbytes := State.frameArrives_bytes (f := f) own hrun (State.takesAtOnce_of_stalled hstall)
      exact arrives (hbytes.trans (State.receive_stalled hrun hstall ha (List.cons_ne_nil _ _) hroom))
    · have hbytes := State.frameArrives_bytes (f := f) own hrun (State.takesAtOnce_of_stalled hstall)
      refine arrives (hbytes.trans ((State.receive_frame_stalled hrun hstall ha hf hlen).trans ?_))
      rw [hf]
      rfl

end Sys2Proof.Machine
end

section
/-! What leaves the receiver as it is: playback, the triggers, the journal, the event queue, the session's end and the deferred
requests. The receiver is the FIFO with the assembler (R161, R163); only bytes and the assembler itself act on it. -/
namespace Sys2Proof.Machine

/-- What the receiver holds: the bytes of the FIFO and the assembler's state (R161, R163). -/
def Link.received (l : Link) : List Byte × Assembler := (l.fifo, l.assembler)

/-- A fold of operations that leave the receiver as it is leaves it as it is. -/
theorem State.foldl_received {α : Type} {f : State → α → State} (hf : ∀ s a, (f s a).link.received = s.link.received)
    (l : List α) (s : State) : (l.foldl f s).link.received = s.link.received :=
  foldl_keeps (P := fun u : State => u.link.received = s.link.received) (fun u a hu => (hf u a).trans hu) l s rfl

/-! ### Replies and deferred requests -/

@[simp] theorem State.pushReply_received (s : State) (r : Reply) : (s.pushReply r).link.received = s.link.received := rfl

@[simp] theorem State.cacheReply_received (s : State) (r : Reply) : (s.cacheReply r).link.received = s.link.received := by
  unfold State.cacheReply
  split <;> rfl

@[simp] theorem State.defer_received (s : State) (owner : Owner) (tag : Byte) :
    (s.defer owner tag).link.received = s.link.received := rfl

@[simp] theorem State.compose_received (s : State) (owner : Owner) (status : Status) (fields : List Byte) :
    (s.compose owner status fields).link.received = s.link.received := by
  unfold State.compose
  split <;> rfl

@[simp] theorem State.composeAborted_received (s : State) (owner : Owner) :
    (s.composeAborted owner).link.received = s.link.received := s.compose_received owner _ _

@[simp] theorem State.answerDeferred_received (s : State) : s.answerDeferred.link.received = s.link.received :=
  State.foldl_received State.composeAborted_received _ { s with choices := s.choices + 1 }

@[simp] theorem State.endSession_received (s : State) : s.endSession.link.received = s.link.received := by
  rw [State.endSession_frame]
  rfl

@[simp] theorem State.removeEvents_received (s : State) (n : Nat) : (s.removeEvents n).link.received = s.link.received := by
  unfold State.removeEvents State.reportLinkFault
  dsimp only
  split
  · split <;> simp [Link.received]
  · rfl

/-! ### Playback -/

@[simp] theorem State.leavePages_link (s : State) (ps : List PageId) : (s.leavePages ps).link = s.link := by
  rw [State.leavePages_eq]

@[simp] theorem State.flush_link (s : State) (t : TrackId) : (s.flush t).link = s.link := by simp [State.flush]

@[simp] theorem State.cancelStart_received (s : State) (t : TrackId) (reason : CancelReason) :
    (s.cancelStart t reason).link.received = s.link.received := by simp [State.cancelStart]

@[simp] theorem State.afterFlush_received (s : State) (t : TrackId) :
    (s.afterFlush t).link.received = s.link.received := by
  unfold State.afterFlush
  split <;> simp

@[simp] theorem State.gateFault_received (s : State) (t : TrackId) (p : Playback) (k : TriggerId) (report : Bool)
    (stall : Stamp) : (s.gateFault t p k report stall).link.received = s.link.received := by simp [State.gateFault]

@[simp] theorem State.reachGate_received (s : State) (t : TrackId) (p : Playback) (index : Nat) (offset : Word32)
    (k : TriggerId) (timeout : Word32) (action : GateAction) (report : Bool) :
    (s.reachGate t p index offset k timeout action report).link.received = s.link.received := by
  unfold State.reachGate
  split
  · simp
  · split <;> simp
  all_goals simp

@[simp] theorem State.takeStep_received (s : State) (t : TrackId) (p : Playback) (st : Step) :
    (s.takeStep t p st).link.received = s.link.received := by cases st <;> simp [State.takeStep]

@[simp] theorem State.takeSteps_received (t : TrackId) (pageTime : Nat) (sts : List Step) (s : State) :
    (State.takeSteps t pageTime sts s).link.received = s.link.received := by
  induction sts generalizing s with
  | nil => rfl
  | cons st rest ih =>
    unfold State.takeSteps
    split
    · split
      · rw [ih, State.takeStep_received]
      · rfl
    · rfl

@[simp] theorem State.playFrom_received (s : State) (t : TrackId) (pageTime : Nat) :
    (s.playFrom t pageTime).link.received = s.link.received := by
  unfold State.playFrom
  split <;> simp

@[simp] theorem State.endGate_received (s : State) (t : TrackId) : (s.endGate t).link.received = s.link.received := by
  unfold State.endGate State.resumePage
  split
  · split <;> simp
  · rfl

/-! ### Triggers -/

@[simp] theorem State.fire_link (s : State) (k : TriggerId) (g : TriggerConfig) (f c : Stamp) :
    (s.fire k g f c).link = s.link := by
  have hreleased (ts : List TrackId) (u : State) : (ts.foldl (fun s t => s.releaseTrack f c t) u).link = u.link :=
    foldl_keeps (P := fun v : State => v.link = u.link) (fun v t hv => (v.releaseTrack_link f c t).trans hv) ts u rfl
  unfold State.fire
  dsimp only
  split
  · simp
  · simp [hreleased]

@[simp] theorem State.edgeAtTrigger_link (s : State) (rising : Bool) (f c : Stamp) (k : TriggerId) :
    (s.edgeAtTrigger rising f c k).link = s.link := by
  unfold State.edgeAtTrigger
  split
  · rfl
  split
  · rfl
  all_goals split <;> simp

@[simp] theorem State.arm_link (s : State) (k : TriggerId) (c : TriggerConfig) : (s.arm k c).link = s.link := by
  unfold State.arm
  split <;> simp

@[simp] theorem State.takeFiring_link (k : TriggerId) (s : State) : (s.takeFiring k).link = s.link := by
  unfold State.takeFiring
  split <;> simp

theorem State.dismiss_received (s : State) (k : TriggerId) (t : TrackId) :
    (s.dismiss k t).link.received = s.link.received := by
  unfold State.dismiss
  split <;> simp

@[simp] theorem State.disarm_received (s : State) (k : TriggerId) : (s.disarm k).link.received = s.link.received :=
  State.foldl_received (fun s t => s.dismiss_received k t) _ _

/-! ### Edges -/

theorem State.recordEdge_received (s : State) (l : LineId) (rising : Bool) (f : Stamp) :
    (s.recordEdge l rising f).link.received = s.link.received := by
  unfold State.recordEdge State.completeRead
  dsimp only
  split
  · split <;> simp
  split
  · rfl
  split <;> rfl

theorem State.acceptEdge_received (s : State) (l : LineId) : (s.acceptEdge l).link.received = s.link.received := by
  unfold State.acceptEdge
  split
  · refine State.foldl_received (fun u r => ?_) _ _
    cases r with
    | journal => exact u.recordEdge_received _ _ _
    | trigger k => exact congrArg Link.received (u.edgeAtTrigger_link _ _ _ k)
  · rfl

@[simp] theorem State.acceptUnfiltered_received (s : State) (l : LineId) :
    (s.acceptUnfiltered l).link.received = s.link.received := by
  unfold State.acceptUnfiltered
  split
  · exact State.foldl_received State.acceptEdge_received _ { s with sample := Sample.fresh }
  · rfl

end Sys2Proof.Machine
end

section
/-! Answers that leave the link unit as it is. -/
namespace Sys2Proof.Machine

section
variable (s : State)

/-! ### The page pool -/

theorem answerOpenPage_link (period : Word32) (repeats : Word16) (flags reserved : Byte) :
    (answerOpenPage period repeats flags reserved s).1.link = s.link := by
  unfold answerOpenPage
  repeat' split
  all_goals rfl

theorem answerAppendSteps_link (page reserved : Byte) (records : List StepRecord) :
    (answerAppendSteps page reserved records s).1.link = s.link := by
  unfold answerAppendSteps
  repeat' split
  all_goals rfl

theorem answerSealPage_link (page : Byte) : (answerSealPage page s).1.link = s.link := by
  unfold answerSealPage
  split
  · rfl
  dsimp only
  split <;> rfl

theorem answerDiscardPage_link (page : Byte) : (answerDiscardPage page s).1.link = s.link := by
  unfold answerDiscardPage
  repeat' split
  all_goals rfl

theorem answerReadPage_link (page first : Byte) : (answerReadPage page first s).1.link = s.link := by
  unfold answerReadPage
  repeat' split
  all_goals rfl

/-! ### The tracks -/

theorem answerConfigureTrack_link (track enable policy options : Byte) (group rest : LineSet) :
    (answerConfigureTrack track enable policy options group rest s).1.link = s.link := by
  unfold answerConfigureTrack
  split
  · rfl
  dsimp only
  split
  · split <;> rfl
  split
  · rfl
  iterate 3
    split
    · rfl
  unfold State.enableTrack
  split <;> simp

theorem answerQueuePage_link (page track : Byte) : (answerQueuePage page track s).1.link = s.link := by
  unfold answerQueuePage
  repeat' split
  all_goals rfl

theorem answerHoldTrack_link (track : Byte) : (answerHoldTrack track s).1.link = s.link := by
  unfold answerHoldTrack
  repeat' split
  all_goals rfl

theorem answerReleaseTrack_link (track : Byte) : (answerReleaseTrack track s).1.link = s.link := by
  unfold answerReleaseTrack
  repeat' split
  all_goals rfl

theorem answerReadTrack_link (track : Byte) : (answerReadTrack track s).1.link = s.link := by
  unfold answerReadTrack
  split <;> rfl

/-- A start beside whose arming the mode leaves the link unit as it is. -/
theorem startTrack_link {s : State} (track options : Byte) (form : Except Status StartForm) {effect : State → State}
    (heffect : (effect s).link = s.link) : (startTrack track options form effect s).1.link = s.link := by
  unfold startTrack
  split
  · rfl
  split
  · split
    · rfl
    split
    · rfl
    split
    · rfl
    · exact heffect
  all_goals rfl

theorem answerStartAt_link (track options trigger : Byte) (time : Stamp) (offset : Word32) :
    (answerStartAt track options trigger time offset s).1.link = s.link := by
  unfold answerStartAt
  split
  · rfl
  · exact startTrack_link track options _ rfl

theorem answerStartAfter_link (track options trigger : Byte) (time : Stamp) (offset : Word32) :
    (answerStartAfter track options trigger time offset s).1.link = s.link := by
  unfold answerStartAfter
  split
  · rfl
  · exact startTrack_link track options _ rfl

theorem answerStartOnTrigger_link (track options trigger : Byte) (time : Stamp) (offset : Word32) :
    (answerStartOnTrigger track options trigger time offset s).1.link = s.link := by
  unfold answerStartOnTrigger
  split
  · rfl
  split
  · rfl
  · exact startTrack_link track options _ (State.takeFiring_link _ s)

theorem answerStartAtEpoch_link (track options trigger : Byte) (time : Stamp) (offset : Word32) :
    (answerStartAtEpoch track options trigger time offset s).1.link = s.link := by
  unfold answerStartAtEpoch
  split
  · rfl
  · exact startTrack_link track options _ rfl

/-! ### The other units -/

theorem answerArmTrigger_link (trigger line sense count flags : Byte) :
    (answerArmTrigger trigger line sense count flags s).1.link = s.link := by
  unfold answerArmTrigger
  split
  · split
    · rfl
    split
    iterate 3 · rfl
    split <;> simp
  · rfl

theorem answerReadTrigger_link (trigger : Byte) : (answerReadTrigger trigger s).1.link = s.link := by
  unfold answerReadTrigger
  split <;> rfl

theorem answerSetTick_link (divider : Byte) : (answerSetTick divider s).1.link = s.link := by
  unfold answerSetTick
  iterate 4
    split
    · rfl
  dsimp only
  split <;> rfl

theorem answerSetReference_link (interval : Word32) (window : Word16) :
    (answerSetReference interval window s).1.link = s.link := by
  unfold answerSetReference
  repeat' split
  all_goals rfl

theorem answerReadJournal_link (ack : Word16) (maximum reserved : Byte) (wait : Word16) :
    (answerReadJournal ack maximum reserved wait s).1.link = s.link := by
  unfold answerReadJournal
  dsimp only
  repeat' split
  all_goals rfl

theorem answerSetJournal_link (watermark : Word16) : (answerSetJournal watermark s).1.link = s.link := by
  unfold answerSetJournal
  split <;> rfl

theorem answerReplayEvents_link (seq : Word16) : (answerReplayEvents seq s).1.link = s.link := by
  unfold answerReplayEvents
  split <;> rfl

end

end Sys2Proof.Machine
end

section
/-! What a request's owner does leaves the receiver as it is, so the bytes of a frame reach the dispatcher as that frame and
nothing of them is left (R161 to R164, R167, R181). -/
namespace Sys2Proof.Machine

section
variable (s : State)

/-! ### Answers that end a session, answer deferred requests, queue a Link Fault or accept an edge -/

theorem State.openSession_received (keepalive : Word16) : (s.openSession keepalive).link.received = s.link.received := rfl

theorem answerOpenSession_received (keepalive : Word16) :
    (answerOpenSession keepalive s).1.link.received = s.link.received := by
  unfold answerOpenSession
  split
  · rfl
  dsimp only
  split
  · rw [State.openSession_received, State.answerDeferred_received, State.endSession_received]
  · rfl

theorem answerAckEvents_received (seq : Word16) : (answerAckEvents seq s).1.link.received = s.link.received := by
  unfold answerAckEvents
  split
  · split <;> simp
  all_goals rfl

theorem answerConfigureLine_received (line role rest filter capture : Byte) :
    (answerConfigureLine line role rest filter capture s).1.link.received = s.link.received := by
  unfold answerConfigureLine
  split
  · iterate 3
      split
      · rfl
    exact State.acceptUnfiltered_received _ _
  · rfl

theorem answerFlushQueue_received (track : Byte) : (answerFlushQueue track s).1.link.received = s.link.received := by
  unfold answerFlushQueue
  split <;> simp

theorem answerStopAbort_received (track : Byte) : (answerStopAbort track s).1.link.received = s.link.received := by
  unfold answerStopAbort State.stopAbort
  split
  · rfl
  split <;> simp

theorem answerStopEnd_received (track : Byte) : (answerStopEnd track s).1.link.received = s.link.received := by
  unfold answerStopEnd State.stopAtOnce
  split
  · rfl
  split
  iterate 2
    · split
      · rfl
      split <;> rfl
  all_goals simp

theorem answerDisarmTrigger_received (trigger : Byte) :
    (answerDisarmTrigger trigger s).1.link.received = s.link.received := by
  unfold answerDisarmTrigger
  split
  · rfl
  split <;> simp

end

/-! ### The dispatcher, whatever the request -/

/-- Whatever a request's owner answers, the receiver is as it was. -/
theorem ownerOf_received (i : Instr) (s : State) : (ownerOf i s).1.link.received = s.link.received := by
  have keeps {s' : State} (h : s'.link = s.link) : s'.link.received = s.link.received := congrArg Link.received h
  cases i with
  | openSession tag keepalive => exact answerOpenSession_received s keepalive
  | ackEvents tag seq => exact answerAckEvents_received s seq
  | configureLine tag line role rest filter capture => exact answerConfigureLine_received s line role rest filter capture
  | flushQueue tag track => exact answerFlushQueue_received s track
  | stopTrackAbort tag track => exact answerStopAbort_received s track
  | stopTrackEnd tag track => exact answerStopEnd_received s track
  | disarmTrigger tag trigger => exact answerDisarmTrigger_received s trigger
  | closeSession tag => exact s.endSession.answerDeferred_received.trans s.endSession_received
  | replayEvents tag seq => exact keeps (answerReplayEvents_link s seq)
  | setTick tag divider => exact keeps (answerSetTick_link s divider)
  | setReference tag interval window => exact keeps (answerSetReference_link s interval window)
  | openPage tag period repeats flags reserved => exact keeps (answerOpenPage_link s period repeats flags reserved)
  | appendSteps tag page reserved records => exact keeps (answerAppendSteps_link s page reserved records)
  | sealPage tag page => exact keeps (answerSealPage_link s page)
  | discardPage tag page => exact keeps (answerDiscardPage_link s page)
  | readPage tag page first => exact keeps (answerReadPage_link s page first)
  | configureTrack tag track enable policy options group rest =>
    exact keeps (answerConfigureTrack_link s track enable policy options group rest)
  | queuePage tag page track => exact keeps (answerQueuePage_link s page track)
  | startTrackAt tag track options trigger time offset =>
    exact keeps (answerStartAt_link s track options trigger time offset)
  | startTrackAfter tag track options trigger time offset =>
    exact keeps (answerStartAfter_link s track options trigger time offset)
  | startTrackOnTrigger tag track options trigger time offset =>
    exact keeps (answerStartOnTrigger_link s track options trigger time offset)
  | startTrackAtEpoch tag track options trigger time offset =>
    exact keeps (answerStartAtEpoch_link s track options trigger time offset)
  | holdTrack tag track => exact keeps (answerHoldTrack_link s track)
  | releaseTrack tag track => exact keeps (answerReleaseTrack_link s track)
  | readTrack tag track => exact keeps (answerReadTrack_link s track)
  | armTrigger tag trigger line sense count flags => exact keeps (answerArmTrigger_link s trigger line sense count flags)
  | readTrigger tag trigger => exact keeps (answerReadTrigger_link s trigger)
  | readJournal tag ack maximum reserved wait => exact keeps (answerReadJournal_link s ack maximum reserved wait)
  | setJournal tag watermark => exact keeps (answerSetJournal_link s watermark)
  | _ => rfl

theorem frameOwner_received (f : Frame) (s : State) : (frameOwner f s).1.link.received = s.link.received := by
  rcases ownsFrame_frameOwner f with ⟨i, -, hown⟩ | ⟨fields, hown⟩
  · exact (congrArg (fun own => (own s).1.link.received) hown).trans (ownerOf_received i s)
  · exact congrArg (fun own => (own s).1.link.received) hown

/-- The dispatcher leaves the receiver as the owner of the request does. -/
theorem State.dispatch_received {own : State → State × Answer}
    (hown : ∀ s, (own s).1.link.received = s.link.received) (s : State) (f : Frame) :
    (s.dispatch f own).link.received = s.link.received := by
  have hexecute : (s.execute f own).link.received = s.link.received := by
    rw [← hown s]
    unfold State.execute
    rcases own s with ⟨s', status | owner⟩ <;> simp
  unfold State.dispatch
  iterate 3
    split
    · rfl
  split
  · exact hexecute
  split
  · rfl
  split
  · rfl
  · exact hexecute

/-- With the frame handled, nothing is left to examine (R164, R167). -/
theorem State.pumpFor_dispatched (n : Nat) {s : State} (hf : s.link.fifo = []) (ha : s.link.assembler = .hunt) (f : Frame) :
    State.pumpFor n (s.dispatch f (frameOwner f)) = s.dispatch f (frameOwner f) := by
  have hreceived : (s.dispatch f (frameOwner f)).link.received = ([], .hunt) := by
    rw [State.dispatch_received (frameOwner_received f), Link.received, hf, ha]
  obtain ⟨hfifo, hhunt⟩ := Prod.mk.inj hreceived
  exact State.pumpFor_hunt_nil n hhunt hfifo

/-- Settles O13: the bytes become a good frame that waits, the dispatcher takes it, and nothing is left to examine. -/
theorem frameBytesReachTheDispatcher : Obligations.FrameBytesReachTheDispatcher := by
  unfold Obligations.FrameBytesReachTheDispatcher
  refine ⟨fun s f htake hf ha hlen => ?_, fun s => ⟨fun hopen hzero => ?_, fun hopen hsome => ?_, fun hclosed => ?_⟩⟩
  · obtain ⟨hrun, -, -⟩ := s.canTake_iff.mp htake
    obtain ⟨n, hreceived⟩ := State.receive_frame hrun hf ha hlen
    have hempty : s.heard.restartSilence.assemble (f.tail.drop (f.len.toNat + 2)) .hunt = s.heard.restartSilence := by
      rw [List.drop_of_length_le (by rw [Frame.len_toNat hlen, f.length_tail]), ← State.restartSilence_assemble, ← hf,
        ← ha]
      rfl
    have htake' : (s.heard.restartSilence.assemble f.bytes .waiting).canTake = true :=
      (State.canTake_restartSilence s.heard).trans htake
    have hlink := s.heard.restartSilence_link
    calc f.bytes.foldl State.receiveByte s
      _ = State.pumpFor (n + 1) (s.heard.restartSilence.assemble f.bytes .waiting) := hreceived
      _ = State.pumpFor n ((s.heard.restartSilence.assemble (f.tail.drop (f.len.toNat + 2)) .hunt).dispatch
            (frameAt f.len f.tail) (frameOwner (frameAt f.len f.tail))) :=
        State.pumpFor_waiting_taken n rfl f.bytes_eq htake'
      _ = State.pumpFor n (s.heard.restartSilence.dispatch f (frameOwner f)) := by rw [hempty, Frame.frameAt_tail hlen]
      _ = s.heard.restartSilence.dispatch f (frameOwner f) :=
        State.pumpFor_dispatched n (by rw [hlink]; exact hf) (by rw [hlink]; exact ha) f
  · rw [State.restartSilence_open hopen, if_pos hzero]
  · rw [State.restartSilence_open hopen, if_neg hsome]
  · exact State.restartSilence_closed (decide_eq_false (by rw [hclosed]; nofun))

end Sys2Proof.Machine
end

section
/-! What leaves the session and the queue of waiting commands as they are: playback, the triggers, the lines, the reference unit,
the journal, and the requests but for Open and Close Session (R177; log entries 19 and 20). -/
namespace Sys2Proof.Machine

/-- A fold of operations that leave the session and the queue as they are leaves them as they are. -/
theorem State.foldl_control {α : Type} {f : State → α → State}
    (hf : ∀ s a, (f s a).session = s.session ∧ (f s a).pending = s.pending) (l : List α) (s : State) :
    (l.foldl f s).session = s.session ∧ (l.foldl f s).pending = s.pending :=
  foldl_keeps (P := fun u => u.session = s.session ∧ u.pending = s.pending)
    (fun u a ⟨hs, hp⟩ => ⟨(hf u a).1.trans hs, (hf u a).2.trans hp⟩) l s ⟨rfl, rfl⟩

/-! ### Pages, steps and gates -/

@[simp] theorem State.flush_control (s : State) (t : TrackId) :
    (s.flush t).session = s.session ∧ (s.flush t).pending = s.pending := by
  rw [State.flush_eq]
  exact ⟨rfl, rfl⟩

@[simp] theorem State.gateFault_control (s : State) (t : TrackId) (p : Playback) (k : TriggerId) (report : Bool)
    (stall : Stamp) : (s.gateFault t p k report stall).session = s.session ∧
      (s.gateFault t p k report stall).pending = s.pending := by simp [State.gateFault]

@[simp] theorem State.reachGate_control (s : State) (t : TrackId) (p : Playback) (index : Nat) (offset : Word32)
    (k : TriggerId) (timeout : Word32) (action : GateAction) (report : Bool) :
    (s.reachGate t p index offset k timeout action report).session = s.session ∧
      (s.reachGate t p index offset k timeout action report).pending = s.pending := by
  unfold State.reachGate
  split
  · simp
  · split <;> simp
  all_goals simp

@[simp] theorem State.takeStep_control (s : State) (t : TrackId) (p : Playback) (st : Step) :
    (s.takeStep t p st).session = s.session ∧ (s.takeStep t p st).pending = s.pending := by
  cases st <;> simp [State.takeStep]

@[simp] theorem State.takeSteps_control (t : TrackId) (pageTime : Nat) (sts : List Step) (s : State) :
    (State.takeSteps t pageTime sts s).session = s.session ∧ (State.takeSteps t pageTime sts s).pending = s.pending := by
  induction sts generalizing s with
  | nil => exact ⟨rfl, rfl⟩
  | cons st rest ih =>
    unfold State.takeSteps
    split
    · split
      · simp [ih]
      · exact ⟨rfl, rfl⟩
    · exact ⟨rfl, rfl⟩

@[simp] theorem State.playFrom_control (s : State) (t : TrackId) (pageTime : Nat) :
    (s.playFrom t pageTime).session = s.session ∧ (s.playFrom t pageTime).pending = s.pending := by
  unfold State.playFrom
  split <;> simp

@[simp] theorem State.pulsesDue_control (s : State) (t : TrackId) (p : Playback) (pageTime : Nat) :
    (s.pulsesDue t p pageTime).session = s.session ∧ (s.pulsesDue t p pageTime).pending = s.pending :=
  State.foldl_control (f := fun s (e : PulseEnd) => s.driveAll e.lines e.level) (fun _ _ => ⟨rfl, rfl⟩) _ s

@[simp] theorem State.resumePage_control (s : State) (t : TrackId) (p : Playback) (g : GateWait) (o : GateOutcome) :
    (s.resumePage t p g o).session = s.session ∧ (s.resumePage t p g o).pending = s.pending := by
  simp [State.resumePage]

@[simp] theorem State.endGate_control (s : State) (t : TrackId) :
    (s.endGate t).session = s.session ∧ (s.endGate t).pending = s.pending := by
  unfold State.endGate
  split
  · split <;> simp
  · exact ⟨rfl, rfl⟩

@[simp] theorem State.resumeReleased_control (s : State) (t : TrackId) :
    (s.resumeReleased t).session = s.session ∧ (s.resumeReleased t).pending = s.pending := by
  unfold State.resumeReleased
  split <;> simp

/-! ### Run ends, starts and aborts -/

@[simp] theorem State.underrun_control (s : State) (t : TrackId) (p : Playback) :
    (s.underrun t p).session = s.session ∧ (s.underrun t p).pending = s.pending := by
  unfold State.underrun
  split <;> simp

@[simp] theorem State.runEnd_control (s : State) (t : TrackId) (p : Playback) :
    (s.runEnd t p).session = s.session ∧ (s.runEnd t p).pending = s.pending := by
  unfold State.runEnd
  dsimp only
  split
  · simp
  split
  · simp
  split <;> simp

@[simp] theorem State.boundary_control (s : State) (t : TrackId) (p : Playback) :
    (s.boundary t p).session = s.session ∧ (s.boundary t p).pending = s.pending := by
  unfold State.boundary
  dsimp only
  split <;> simp

@[simp] theorem State.trackActions_control (s : State) (t : TrackId) :
    (s.trackActions t).session = s.session ∧ (s.trackActions t).pending = s.pending := by
  unfold State.trackActions
  split
  · dsimp only
    split <;> simp
  · exact ⟨rfl, rfl⟩

@[simp] theorem State.startEffect_control (s : State) (t : TrackId) :
    (s.startEffect t).session = s.session ∧ (s.startEffect t).pending = s.pending := by
  unfold State.startEffect
  split <;> simp

@[simp] theorem State.releaseEffect_control (s : State) (t : TrackId) :
    (s.releaseEffect t).session = s.session ∧ (s.releaseEffect t).pending = s.pending := by
  unfold State.releaseEffect
  split <;> simp

@[simp] theorem State.abortTrack_control (s : State) (t : TrackId) :
    (s.abortTrack t).session = s.session ∧ (s.abortTrack t).pending = s.pending := by
  unfold State.abortTrack State.abortPage
  split <;> simp

@[simp] theorem State.afterFlush_control (s : State) (t : TrackId) :
    (s.afterFlush t).session = s.session ∧ (s.afterFlush t).pending = s.pending := by
  unfold State.afterFlush
  split <;> simp

/-! ### Triggers -/

@[simp] theorem State.fire_control (s : State) (k : TriggerId) (g : TriggerConfig) (f c : Stamp) :
    (s.fire k g f c).session = s.session ∧ (s.fire k g f c).pending = s.pending := by
  unfold State.fire
  dsimp only
  split
  · simp
  · simp [State.foldl_control (f := fun s t => State.releaseTrack s f c t) fun _ _ => ⟨rfl, rfl⟩]

@[simp] theorem State.edgeAtTrigger_control (s : State) (rising : Bool) (f c : Stamp) (k : TriggerId) :
    (s.edgeAtTrigger rising f c k).session = s.session ∧ (s.edgeAtTrigger rising f c k).pending = s.pending := by
  unfold State.edgeAtTrigger
  split
  · exact ⟨rfl, rfl⟩
  split
  · exact ⟨rfl, rfl⟩
  all_goals split <;> simp

@[simp] theorem State.arm_control (s : State) (k : TriggerId) (c : TriggerConfig) :
    (s.arm k c).session = s.session ∧ (s.arm k c).pending = s.pending := by
  unfold State.arm
  split <;> simp

@[simp] theorem State.disarm_control (s : State) (k : TriggerId) :
    (s.disarm k).session = s.session ∧ (s.disarm k).pending = s.pending := by
  refine State.foldl_control (fun s t => ?_) _ _
  unfold State.dismiss
  split <;> simp

@[simp] theorem State.takeFiring_control (k : TriggerId) (s : State) :
    (s.takeFiring k).session = s.session ∧ (s.takeFiring k).pending = s.pending := by
  unfold State.takeFiring
  split <;> simp

@[simp] theorem State.discardFiring_control (s : State) (k : TriggerId) :
    (s.discardFiring k).session = s.session ∧ (s.discardFiring k).pending = s.pending := by
  unfold State.discardFiring
  split <;> simp

/-! ### The journal and the lines -/

@[simp] theorem State.noticeJournal_control (s : State) :
    s.noticeJournal.session = s.session ∧ s.noticeJournal.pending = s.pending := by
  unfold State.noticeJournal
  split <;> simp

@[simp] theorem State.completeRead_control (s : State) :
    s.completeRead.session = s.session ∧ s.completeRead.pending = s.pending := by
  unfold State.completeRead
  split <;> simp

@[simp] theorem State.expireRead_control (s : State) :
    s.expireRead.session = s.session ∧ s.expireRead.pending = s.pending := by
  unfold State.expireRead
  split <;> simp

@[simp] theorem State.recordEdge_control (s : State) (l : LineId) (rising : Bool) (f : Stamp) :
    (s.recordEdge l rising f).session = s.session ∧ (s.recordEdge l rising f).pending = s.pending := by
  unfold State.recordEdge
  dsimp only
  split
  · simp
  split
  · exact ⟨rfl, rfl⟩
  · split <;> exact ⟨rfl, rfl⟩

@[simp] theorem State.acceptEdge_control (s : State) (l : LineId) :
    (s.acceptEdge l).session = s.session ∧ (s.acceptEdge l).pending = s.pending := by
  unfold State.acceptEdge
  split
  · refine State.foldl_control (fun s r => ?_) _ _
    cases r with
    | journal => exact s.recordEdge_control _ _ _
    | trigger k => exact s.edgeAtTrigger_control _ _ _ k
  · exact ⟨rfl, rfl⟩

@[simp] theorem State.endSample_control (s : State) :
    s.endSample.session = s.session ∧ s.endSample.pending = s.pending :=
  State.foldl_control State.acceptEdge_control _ _

@[simp] theorem State.acceptUnfiltered_control (s : State) (l : LineId) :
    (s.acceptUnfiltered l).session = s.session ∧ (s.acceptUnfiltered l).pending = s.pending := by
  unfold State.acceptUnfiltered
  split <;> simp

/-! ### The reference unit and the event queue -/

@[simp] theorem State.lossOfLock_control (s : State) :
    s.lossOfLock.session = s.session ∧ s.lossOfLock.pending = s.pending := by
  unfold State.lossOfLock
  dsimp only
  simp [State.foldl_control (f := fun s t => State.cancelStart s t .reference) fun s t => by simp]

@[simp] theorem State.checkPulse_control (s : State) :
    s.checkPulse.session = s.session ∧ s.checkPulse.pending = s.pending := by
  unfold State.checkPulse
  dsimp only
  split
  · exact ⟨rfl, rfl⟩
  split
  all_goals split <;> simp

@[simp] theorem State.pulse_control (s : State) : s.pulse.session = s.session ∧ s.pulse.pending = s.pending := by
  unfold State.pulse State.releaseEpoch
  dsimp only
  split <;> simp

@[simp] theorem State.missPulse_control (s : State) :
    s.missPulse.session = s.session ∧ s.missPulse.pending = s.pending := by
  unfold State.missPulse
  dsimp only
  split <;> simp

@[simp] theorem State.removeEvents_control (s : State) (n : Nat) :
    (s.removeEvents n).session = s.session ∧ (s.removeEvents n).pending = s.pending := by
  unfold State.removeEvents
  dsimp only
  split <;> simp

/-! ### The requests -/

/-- A start beside whose arming the mode leaves the session and the queue as they are. -/
theorem startTrack_control (track options : Byte) (form : Except Status StartForm) {effect : State → State} {s : State}
    (heffect : (effect s).session = s.session ∧ (effect s).pending = s.pending) :
    (startTrack track options form effect s).1.session = s.session ∧
      (startTrack track options form effect s).1.pending = s.pending := by
  unfold startTrack
  split
  · exact ⟨rfl, rfl⟩
  split
  · split
    · exact ⟨rfl, rfl⟩
    split
    · exact ⟨rfl, rfl⟩
    split
    · exact ⟨rfl, rfl⟩
    · exact heffect
  all_goals exact ⟨rfl, rfl⟩

/-- Whatever a request's owner answers, unless it opens or closes a session, the session and the queue are as they were: each
answer changes records of the other blocks alone, by the operations above or in place. -/
theorem ownerOf_control (i : Instr) (s : State) (hopen : ∀ tag keepalive, i ≠ .openSession tag keepalive)
    (hclose : ∀ tag, i ≠ .closeSession tag) :
    (ownerOf i s).1.session = s.session ∧ (ownerOf i s).1.pending = s.pending := by
  cases i with
  | openSession tag keepalive => exact absurd rfl (hopen tag keepalive)
  | closeSession tag => exact absurd rfl (hclose tag)
  | startTrackAt | startTrackAfter | startTrackAtEpoch =>
    simp only [ownerOf, answerStartAt, answerStartAfter, answerStartAtEpoch]
    split
    · exact ⟨rfl, rfl⟩
    · exact startTrack_control _ _ _ ⟨rfl, rfl⟩
  | startTrackOnTrigger =>
    simp only [ownerOf, answerStartOnTrigger]
    split
    · exact ⟨rfl, rfl⟩
    split
    · exact ⟨rfl, rfl⟩
    · exact startTrack_control _ _ _ (State.takeFiring_control _ s)
  | configureTrack =>
    simp only [ownerOf, answerConfigureTrack, State.enableTrack, State.disableTrack]
    repeat' split
    all_goals simp
  | ackEvents | configureLine | flushQueue | stopTrackAbort | stopTrackEnd | armTrigger | disarmTrigger =>
    simp only [ownerOf, answerAckEvents, answerConfigureLine, State.setLine, answerFlushQueue, answerStopAbort,
      State.stopAbort, answerStopEnd, State.stopAtOnce, answerArmTrigger, answerDisarmTrigger]
    repeat' split
    all_goals simp
  | openPage | appendSteps | sealPage | discardPage | readPage | queuePage | holdTrack | releaseTrack | readTrack
  | readTrigger | readJournal | setJournal | setTick | setReference | replayEvents =>
    simp only [ownerOf, answerOpenPage, answerAppendSteps, answerSealPage, answerDiscardPage, answerReadPage,
      answerQueuePage, answerHoldTrack, answerReleaseTrack, answerReadTrack, answerReadTrigger, answerReadJournal,
      answerSetJournal, answerSetTick, State.changeDivider, answerSetReference, answerReplayEvents]
    repeat' split
    all_goals exact ⟨rfl, rfl⟩
  | _ => exact ⟨rfl, rfl⟩

end Sys2Proof.Machine
end

section
/-! No command touches the queue of waiting commands (log entries 19 and 20). -/
namespace Sys2Proof.Machine

/-! ### Sessions and time -/

@[simp] theorem State.answerDeferred_pending (s : State) : s.answerDeferred.pending = s.pending := by
  rw [State.answerDeferred_frame]

@[simp] theorem State.endSession_pending (s : State) : s.endSession.pending = s.pending := by
  rw [State.endSession_frame]

@[simp] theorem State.loseLink_pending (s : State) : s.loseLink.pending = s.pending := by
  rw [State.loseLink_eq, ← s.endSession_pending]

@[simp] theorem State.advance_pending (s : State) (n : Nat) : (s.advance n).pending = s.pending := by
  unfold State.advance
  split <;> rfl

/-! ### Requests -/

theorem answerOpenSession_pending (keepalive : Word16) (s : State) :
    (answerOpenSession keepalive s).1.pending = s.pending := by
  have hopened (u : State) : (u.openSession keepalive).pending = u.pending := rfl
  unfold answerOpenSession
  split
  · rfl
  dsimp only
  rw [hopened]
  split <;> simp

theorem ownerOf_pending (i : Instr) (s : State) : (ownerOf i s).1.pending = s.pending := by
  by_cases hopen : ∃ tag keepalive, i = .openSession tag keepalive
  · obtain ⟨tag, keepalive, rfl⟩ := hopen
    exact answerOpenSession_pending keepalive s
  by_cases hclose : ∃ tag, i = .closeSession tag
  · obtain ⟨tag, rfl⟩ := hclose
    exact s.endSession.answerDeferred_pending.trans s.endSession_pending
  · exact (ownerOf_control i s (fun tag keepalive h => hopen ⟨tag, keepalive, h⟩) fun tag h => hclose ⟨tag, h⟩).2

theorem OwnsFrame.pending {f : Frame} {own : State → State × Answer} (h : OwnsFrame f own) (s : State) :
    (own s).1.pending = s.pending := by
  obtain ⟨i, -, rfl⟩ | ⟨fields, rfl⟩ := h
  · exact ownerOf_pending i s
  · rfl

/-- The dispatcher leaves the queue as the owner of the request does. -/
theorem State.dispatch_pending {f : Frame} {own : State → State × Answer} (h : OwnsFrame f own) (s : State) :
    (s.dispatch f own).pending = s.pending := by
  have hexecute : (s.execute f own).pending = s.pending := by
    rw [← h.pending s]
    unfold State.execute
    rcases own s with ⟨s', status | owner⟩ <;> simp
  unfold State.dispatch
  iterate 3
    split
    · rfl
  split
  · exact hexecute
  split
  · rfl
  split
  · rfl
  · exact hexecute

/-! ### The receiver and the arbiter -/

@[simp] theorem State.pumpFor_pending (n : Nat) (s : State) : (State.pumpFor n s).pending = s.pending := by
  induction n generalizing s with
  | zero => rfl
  | succ n ih =>
    have hdispatch (s : State) (f : Frame) := s.dispatch_pending (ownsFrame_frameOwner f)
    unfold State.pumpFor
    split
    all_goals split
    all_goals simp only [apply_ite State.pending, ih, hdispatch, State.assemble_pending, State.linkFault_pending,
      State.restartSilence_pending, ite_self]

@[simp] theorem State.receiveByte_pending (b : Byte) (s : State) : (s.receiveByte b).pending = s.pending := by
  unfold State.receiveByte State.pump
  split
  · rfl
  split
  · dsimp only
    split <;> simp
  · simp

theorem State.frameArrives_pending {f : Frame} {own : State → State × Answer} (h : OwnsFrame f own) (s : State) :
    (s.frameArrives f own).pending = s.pending := by
  unfold State.frameArrives
  split
  · rfl
  split
  · rw [State.dispatch_pending h, State.restartSilence_pending]
  · exact foldl_keeps (P := fun u => u.pending = s.pending) (fun u b hu => (u.receiveByte_pending b).trans hu) _ s rfl

theorem State.request_pending (i : Instr) (s : State) : (s.request i (ownerOf i)).pending = s.pending := by
  unfold State.request
  split
  · rfl
  · rename_i f hf
    exact State.frameArrives_pending (ownsFrame_ownerOf hf) s

@[simp] theorem State.replyTaken_pending (s : State) (o : Outgoing) : (s.replyTaken o).pending = s.pending := by
  cases o with
  | immediate r =>
    rw [State.replyTaken, State.pump]
    split <;> simp
  | deferred r cacheable =>
    rw [State.replyTaken]
    split <;> simp

@[simp] theorem State.transmit_pending (s : State) : s.transmit.pending = s.pending := by
  unfold State.transmit
  split
  · rfl
  split
  · rfl
  · simp
  · split <;> rfl

/-! ### Timed commands and samples -/

theorem State.atDue_pending {act : State → State} (hact : ∀ s, (act s).pending = s.pending) (s : State) (c : Instr) :
    (s.atDue c act).pending = s.pending := by
  unfold State.atDue
  split
  · rfl
  · exact hact s
  · split
    · rw [hact, State.advance_pending]
    · rfl

@[simp] theorem State.endSampleAtLastRow_pending (s : State) : s.endSampleAtLastRow.pending = s.pending := by
  unfold State.endSampleAtLastRow
  split <;> simp

theorem State.samplePin_pending (s : State) (l : LineId) (level : Bool) : (s.samplePin l level).pending = s.pending := by
  have hshown (u : State) : (u.showLevel l level).pending = u.pending := rfl
  rw [State.samplePin, State.endSampleAtLastRow_pending, hshown]
  split <;> simp

theorem State.acceptInSample_pending (s : State) (l : LineId) : (s.acceptInSample l).pending = s.pending :=
  (s.joinSample l).endSampleAtLastRow_pending

/-- Settles O3: row by row; a request's row by what its owner answers, a timed row by its action. -/
theorem commandsKeepTheQueue : Obligations.CommandsKeepTheQueue := by
  intro c s t h
  cases c with
  | badKindFrame tag kind payload => cases h; exact State.frameArrives_pending (ownsFrame_frameOwner _) s
  | byteReceived byte => cases h; exact s.receiveByte_pending byte
  | gapTimeout => cases h; exact State.atDue_pending (act := State.gapExpired) (fun s => State.linkFault_pending _ _) s _
  | keepaliveExpiry => cases h; exact State.atDue_pending State.loseLink_pending s _
  | transmitNextFrame => cases h; exact State.atDue_pending State.transmit_pending s _
  | resetPower => cases h; rfl
  | resetPin => cases h; rfl
  | resetRequest => cases h; exact State.atDue_pending (act := fun s => s.beginReset .request) (fun _ => rfl) s _
  | startUpEnd => cases h; exact State.atDue_pending (act := State.endStartUp) (fun _ => rfl) s _
  | inputTransition line level => cases h; exact s.samplePin_pending line level
  | edgeAcceptance line => cases h; exact State.atDue_pending (fun s => s.acceptInSample_pending line) s _
  | referencePulse => cases h; split <;> simp
  | missingPulseExpiry => cases h; exact State.atDue_pending (fun s => s.missPulse_control.2) s _
  | firingAgeDiscard trigger => cases h; exact State.atDue_pending (fun s => (s.discardFiring_control trigger).2) s _
  | gateExpiry track => cases h; exact State.atDue_pending (fun s => (s.endGate_control track).2) s _
  | gateResume track => cases h; exact State.atDue_pending (fun s => (s.resumeReleased_control track).2) s _
  | journalWaitExpiry => cases h; exact State.atDue_pending (fun s => s.expireRead_control.2) s _
  | armedStartEffect track => cases h; exact State.atDue_pending (fun s => (s.startEffect_control track).2) s _
  | releaseStartEffect track => cases h; exact State.atDue_pending (fun s => (s.releaseEffect_control track).2) s _
  | trackActionTick track => cases h; exact State.atDue_pending (fun s => (s.trackActions_control track).2) s _
  | resetEnd straps => cases h; split <;> rfl
  | _ => cases h; exact State.request_pending _ s

end Sys2Proof.Machine
end

section
/-! The resets, their ends and the end of the start-up interval (R160, R184, R185). -/
namespace Sys2Proof.Machine

theorem execResetPin_eq (s : State) :
    exec .resetPin s = .next (s.beginReset (if s.phase = .reset ∧ s.cause = .power then .power else .pin)) := rfl

theorem exec_resetRequest {s : State} {d : Nat} (h : s.dueAfter .resetRequest d) :
    exec .resetRequest s = .next ((s.afterPeriods d).beginReset .request) :=
  congrArg Host.Outcome.next (State.atDue_of_dueAfter h fun s => s.beginReset .request)

/-- A reset takes nothing of the state it finds but what stands outside the blocks, which no period of the clock touches. -/
theorem State.beginReset_afterPeriods (s : State) (d : Nat) (cause : ResetCause) :
    (s.afterPeriods d).beginReset cause = s.beginReset cause := by
  rw [State.afterPeriods_frame]
  rfl

theorem exec_startUpEnd {s : State} {d : Nat} (h : s.dueAfter .startUpEnd d) :
    exec .startUpEnd s = .next (s.afterPeriods d).endStartUp :=
  congrArg Host.Outcome.next (State.atDue_of_dueAfter h State.endStartUp)

/-- Settles O5: the three resets by their cause, and the two ends at their moments. -/
theorem resetsReturnEveryBlock : Obligations.ResetsReturnEveryBlock := by
  unfold Obligations.ResetsReturnEveryBlock
  refine ⟨fun s => ⟨rfl, fun hpower => ?_, fun hother => ?_, fun d hdue => ?_⟩, fun s straps hreset => ?_,
    fun s d hdue => ?_⟩
  · rw [execResetPin_eq, if_pos hpower]
    rfl
  · rw [execResetPin_eq, if_neg hother]
    rfl
  · rw [exec_resetRequest hdue, State.beginReset_afterPeriods]
    rfl
  · exact congrArg Host.Outcome.next (if_pos hreset)
  · rw [← s.afterPeriods_cause d, ← s.afterPeriods_linkRate d]
    exact exec_startUpEnd hdue

end Sys2Proof.Machine
end

section
/-! Identify and Ping (R182, R183). -/
namespace Sys2Proof.Machine

theorem isRequest_identify {tag : Byte} : IsRequest (.identify tag) 0x01 tag := ⟨fun _ => rfl, _, rfl, rfl, rfl⟩

theorem isRequest_ping {tag : Byte} {payload : List Byte} (h : payload.length ≤ 240) :
    IsRequest (.ping tag payload) 0x04 tag :=
  ⟨fun _ => rfl, _, rfl, rfl, decide_eq_true h⟩

theorem partCode_capacities_eq :
    partCode ++ capacities =
      [(0x16 : Byte), 0x08, 0x01] ++ [(16 : Byte), 8, 64, 0, 4, 128, 8, 4, 0, 1, 32, 4, 8, 240] := rfl

theorem u8_linkRate (rate : BitVec 2) : u8 rate.toNat = [rate.setWidth 8] := by
  rw [u8, BitVec.ofNat_toNat]

theorem answerIdentify_eq (s : State) :
    answerIdentify s = (s, .reply .ok
      ([(0x16 : Byte), 0x08, 0x01] ++ [(16 : Byte), 8, 64, 0, 4, 128, 8, 4, 0, 1, 32, 4, 8, 240] ++ [s.linkRate.setWidth 8] ++
        u8 s.cause.code ++ u8 s.session.status.code ++ le16 s.session.number ++ le16 s.session.keepalive ++
        le48 s.timeline) 0) := by
  rw [answerIdentify, partCode_capacities_eq, u8_linkRate]
  rfl

/-- Of the session the good frame of a request restarts the silence timer alone (R164). -/
theorem State.restartSilence_session (s : State) :
    s.restartSilence.session.status = s.session.status ∧ s.restartSilence.session.keepalive = s.session.keepalive := by
  unfold State.restartSilence
  split <;> exact ⟨rfl, rfl⟩

/-- Settles O9: each is executed as a request whose owner answers and changes nothing. -/
theorem identifyAndPingChangeNothing : Obligations.IdentifyAndPingChangeNothing := by
  unfold Obligations.IdentifyAndPingChangeNothing
  refine ⟨fun s tag hx => ?_, fun s tag payload hx hlen => (isRequest_ping hlen).reply hx rfl rfl⟩
  obtain ⟨hstatus, hkeepalive⟩ := s.restartSilence_session
  have hreports := isRequest_identify.reply hx rfl (answerIdentify_eq s.restartSilence)
  rw [s.restartSilence_linkRate, s.restartSilence_cause, hstatus, s.restartSilence_number, hkeepalive,
    s.restartSilence_timeline] at hreports
  exact hreports

end Sys2Proof.Machine
end

section
/-! A closed session stays quiet and the silence timer runs exactly while it must (R177, R181). -/
namespace Sys2Proof.Machine

/-! ### What a quiet part does nothing about -/

namespace State.Quiet

variable {s : State} (h : s.Quiet)
include h

/-! A track that is IDLE or DISABLED has no action of its own. -/

theorem endGate (t : TrackId) : s.endGate t = s := by
  rcases h.tracks t with ht | ht <;> simp only [State.endGate, ht]

theorem resumeReleased (t : TrackId) : s.resumeReleased t = s := by
  rcases h.tracks t with ht | ht <;> simp only [State.resumeReleased, ht]

theorem startEffect (t : TrackId) : s.startEffect t = s := by
  rcases h.tracks t with ht | ht <;> simp only [State.startEffect, ht]

theorem releaseEffect (t : TrackId) : s.releaseEffect t = s := by
  rcases h.tracks t with ht | ht <;> simp only [State.releaseEffect, ht]

theorem trackActions (t : TrackId) : s.trackActions t = s := by
  rcases h.tracks t with ht | ht <;> simp only [State.trackActions, ht]

theorem onEpoch (t : TrackId) : s.tracks[t].onEpoch = false := by
  rcases h.tracks t with ht | ht
  all_goals rw [Track.onEpoch, ht]

/-- No firing is held while every trigger is DISARMED. -/
theorem discardFiring (k : TriggerId) : s.discardFiring k = s := by
  simp only [State.discardFiring, h.triggers k]

end State.Quiet

/-! ### The law from state to state -/

theorem silenceOf_isSome (keepalive : Word16) : (silenceOf keepalive).isSome = decide (keepalive ≠ 0) := by
  unfold silenceOf
  split
  · rename_i hzero
    exact (decide_eq_false (not_not_intro hzero)).symm
  · rename_i hsome
    exact (decide_eq_true hsome).symm

/-- An open session obeys the law by its silence timer alone. -/
theorem State.sessionLaw_of_open {s : State} (hopen : s.isOpen = true)
    (hsilence : s.session.silence.isSome = decide (s.session.keepalive ≠ 0)) : s.SessionLaw where
  closedQuiet hclosed := absurd (hopen.symm.trans hclosed) (by decide)
  silence := by rw [hsilence, hopen, Bool.true_and]

theorem State.sessionLaw_of_closed {s : State} (hclosed : s.isOpen = false) (hsilence : s.session.silence = none)
    (hquiet : s.Quiet) : s.SessionLaw where
  closedQuiet _ := hquiet
  silence := by rw [hsilence, hclosed]; rfl

theorem State.openSession_sessionLaw (s : State) (keepalive : Word16) : (s.openSession keepalive).SessionLaw :=
  State.sessionLaw_of_open rfl (silenceOf_isSome keepalive)

/-! ### Session ends -/

theorem State.compose_awaiting (s : State) (owner : Owner) (status : Status) (fields : List Byte) :
    (s.compose owner status fields).link.awaiting = s.link.awaiting.filter (·.owner != owner) := by
  unfold State.compose
  split
  · rename_i hnone
    rw [List.find?_eq_none] at hnone
    refine (List.filter_eq_self.mpr fun d hd => ?_).symm
    simpa using hnone d hd
  · rfl

theorem State.compose_cache (s : State) (owner : Owner) (status : Status) (fields : List Byte) :
    (s.compose owner status fields).link.cache = s.link.cache := by
  unfold State.compose
  split <;> rfl

/-- The requests of the owners of a list, answered ABORTED one after another, leave those that await a reply; no reply is
cached by it. -/
theorem State.composeAborted_foldl (owners : List Owner) (s : State) :
    (∀ d ∈ (owners.foldl State.composeAborted s).link.awaiting, d ∈ s.link.awaiting ∧ d.owner ∉ owners) ∧
      (owners.foldl State.composeAborted s).link.cache = s.link.cache := by
  induction owners generalizing s with
  | nil => exact ⟨fun d hd => ⟨hd, List.not_mem_nil⟩, rfl⟩
  | cons o owners ih =>
    obtain ⟨hleft, hcache⟩ := ih (s.composeAborted o)
    refine ⟨fun d hd => ?_, hcache.trans (s.compose_cache o _ _)⟩
    obtain ⟨hmem, hothers⟩ := hleft d hd
    rw [State.composeAborted, State.compose_awaiting, List.mem_filter, bne_iff_ne] at hmem
    exact ⟨hmem.1, List.not_mem_cons_of_ne_of_not_mem hmem.2 hothers⟩

/-- At a session end by request no deferred request is left (R173). -/
theorem State.answerDeferred_awaiting (s : State) : s.answerDeferred.link.awaiting = [] := by
  refine List.eq_nil_iff_forall_not_mem.mpr fun d hd => ?_
  obtain ⟨hmem, hothers⟩ := (State.composeAborted_foldl _ { s with choices := s.choices + 1 }).1 d hd
  exact hothers ((freeOrder_perm _ _ _).mem_iff.mpr (List.mem_map_of_mem hmem))

theorem State.answerDeferred_cache (s : State) : s.answerDeferred.link.cache = s.link.cache :=
  (State.composeAborted_foldl _ { s with choices := s.choices + 1 }).2

theorem Track.ended_quiet (tr : Track) : tr.ended.state = .idle ∨ tr.ended.state = .disabled := by
  by_cases hd : tr.state = .disabled
  · rw [Track.ended_of_disabled hd]
    exact .inr hd
  · rw [Track.ended_spec hd]
    exact .inl rfl

/-- A session end quiets the part, once its deferred requests are answered or discarded (R173, R180). -/
theorem State.quiet_of_ended {s u : State} (htracks : u.tracks = s.endSession.tracks)
    (htriggers : u.triggers = s.endSession.triggers) (hpages : u.pages = s.endSession.pages)
    (hevents : u.events = s.endSession.events) (hjournal : u.journal = s.endSession.journal) (hcache : u.link.cache = [])
    (hawaiting : u.link.awaiting = []) : u.Quiet where
  tracks t := by rw [htracks, State.endSession_track]; exact Track.ended_quiet _
  triggers k := by rw [htriggers, State.endSession_trigger]
  pages p := by rw [hpages, State.endSession_page]; rfl
  events := by rw [hevents, State.endSession_frame]
  cache := hcache
  awaiting := hawaiting
  waiting := by rw [hjournal, State.endSession_journal]

theorem State.endSession_cache (s : State) : s.endSession.link.cache = [] := by rw [State.endSession_frame]

/-- A session end by request leaves the law (R173, R177). -/
theorem State.endSession_answerDeferred_sessionLaw (s : State) : s.endSession.answerDeferred.SessionLaw := by
  have hsilence : s.endSession.answerDeferred.session.silence = none := by
    rw [State.answerDeferred_session, State.endSession_session]
  refine State.sessionLaw_of_closed s.isOpen_endSession_answerDeferred hsilence (State.quiet_of_ended (s := s) ?_ ?_ ?_ ?_ ?_
    ((State.answerDeferred_cache _).trans s.endSession_cache) (State.answerDeferred_awaiting _))
  all_goals rw [State.answerDeferred_frame]

/-- A session end by silence leaves the law (R173, R177, R181). -/
theorem State.loseLink_sessionLaw (s : State) : s.loseLink.SessionLaw := by
  have hsession : s.loseLink.session = s.endSession.session := by rw [State.loseLink_eq]
  rw [State.endSession_session] at hsession
  have hclosed : s.loseLink.isOpen = false := by rw [State.isOpen, hsession]; rfl
  refine State.sessionLaw_of_closed hclosed (by rw [hsession]) (State.quiet_of_ended (s := s) ?_ ?_ ?_ ?_ ?_ ?_ ?_)
  case refine_6 => rw [State.loseLink_eq]; exact s.endSession_cache
  all_goals rw [State.loseLink_eq]

/-! ### What keeps the law -/

namespace State.SessionLaw

variable {s : State} (h : s.SessionLaw)
include h

/-- What leaves the session as it is keeps the law if it leaves a quiet part quiet. -/
theorem congr {s' : State} (hsession : s'.session = s.session) (hquiet : s.isOpen = false → s.Quiet → s'.Quiet) :
    s'.SessionLaw := by
  have hopen : s'.isOpen = s.isOpen := by rw [State.isOpen, hsession]; rfl
  exact ⟨fun hclosed => hquiet (hopen.symm.trans hclosed) (h.closedQuiet (hopen.symm.trans hclosed)),
    by rw [hsession, hopen]; exact h.silence⟩

/-- What leaves the session as it is, and a quiet part wholly, keeps the law. -/
theorem still {s' : State} (hsession : s'.session = s.session) (hstill : s.isOpen = false → s.Quiet → s' = s) :
    s'.SessionLaw :=
  h.congr hsession fun hclosed q => by rw [hstill hclosed q]; exact q

/-- What queues an event keeps the law: with no session open there is nothing to keep it (R150). -/
theorem queueEvent (e : Event) : (s.queueEvent e).SessionLaw :=
  h.still (by simp) fun hclosed _ => State.queueEvent_closed hclosed e

theorem reference (r : Reference) : State.SessionLaw { s with reference := r } := h.congr rfl fun _ q => { q with }

/-! #### The link unit -/

theorem linkFault (k : LinkFaultKind) : (s.linkFault k).SessionLaw :=
  h.congr (by simp) fun hclosed q => by
    rw [State.linkFault_unreported (.inl hclosed) k]
    exact { q with }

theorem restartSilence : s.restartSilence.SessionLaw := by
  cases hopen : s.isOpen with
  | true =>
    refine State.sessionLaw_of_open (s.isOpen_restartSilence.trans hopen) ?_
    rw [State.restartSilence, if_pos hopen]
    exact silenceOf_isSome _
  | false =>
    rw [State.restartSilence_closed hopen]
    exact h

theorem cacheReply (r : Reply) : (s.cacheReply r).SessionLaw :=
  h.still (by simp) fun hclosed _ => State.cacheReply_unstored (.inr (.inr hclosed))

theorem eventTaken {e : Entry} {queue : List Entry} (ht : takeUnsent s.events.queue = some (e, queue)) :
    State.SessionLaw { s with events := { s.events with queue := queue } } :=
  h.congr rfl fun _ q => by
    rw [q.events] at ht
    cases ht

theorem advance (n : Nat) : (s.advance n).SessionLaw := by
  unfold State.advance
  split
  · exact h
  · exact
      { closedQuiet := fun hclosed =>
          have q := h.closedQuiet hclosed
          { q with waiting := by simp [q.waiting] }
        silence := Option.isSome_map.trans h.silence }

/-! #### Edges -/

theorem recordEdge (l : LineId) (rising : Bool) (f : Stamp) : (s.recordEdge l rising f).SessionLaw := by
  refine h.congr (s.recordEdge_control l rising f).1 fun hclosed q => ?_
  by_cases hroom : s.journal.records.length < Config.journalRecords
  · have hnotice : ¬ State.NoticeDue { s with journal := s.journal.recorded l rising f } :=
      fun ⟨_, _, _, hopen⟩ => absurd (hclosed.symm.trans hopen) (by decide)
    rw [State.recordEdge_unread hroom q.waiting, State.noticeJournal_not_due hnotice]
    exact { q with }
  · have hfull := Nat.le_of_not_lt hroom
    cases hgap : s.journal.gap with
    | none =>
      rw [State.recordEdge_newGap hfull hgap]
      exact { q with }
    | some g =>
      rw [State.recordEdge_gap hfull hgap]
      split
      · exact q
      · exact { q with }

theorem edgeAtTrigger (rising : Bool) (f c : Stamp) (k : TriggerId) : (s.edgeAtTrigger rising f c k).SessionLaw :=
  h.still (s.edgeAtTrigger_control rising f c k).1 fun _ q => by
    cases hconfig : s.triggers[k].config with
    | none => exact State.edgeAtTrigger_unconfigured hconfig
    | some g => exact State.edgeAtTrigger_disarmed hconfig (q.triggers k)

theorem acceptEdge (l : LineId) : (s.acceptEdge l).SessionLaw := by
  unfold State.acceptEdge
  split
  · refine foldl_keeps (P := State.SessionLaw) (fun s r h => ?_) _ _ (h.congr rfl fun _ q => { q with })
    cases r with
    | journal => exact h.recordEdge _ _ _
    | trigger k => exact h.edgeAtTrigger _ _ _ k
  · exact h

/-! #### The reference unit -/

theorem lossOfLock : s.lossOfLock.SessionLaw := by
  refine h.congr s.lossOfLock_control.1 fun hclosed q => ?_
  have hnone : (allTracks.filter fun t => s.tracks[t].onEpoch) = [] :=
    List.filter_eq_nil_iff.mpr fun t _ => by rw [q.onEpoch t]; decide
  rw [State.lossOfLock, hnone, List.foldl_nil]
  exact ((h.reference _).queueEvent _).closedQuiet ((State.isOpen_queueEvent _ _).trans hclosed)

theorem checkPulse : s.checkPulse.SessionLaw := by
  unfold State.checkPulse
  dsimp only
  split
  · exact h.reference _
  split
  · split
    · exact (h.reference _).queueEvent _
    · exact h.reference _
  · split
    · exact (h.reference _).lossOfLock
    · exact h.reference _

theorem releaseEpoch : s.releaseEpoch.SessionLaw := h.still rfl fun _ q => State.releaseEpoch_of_none q.onEpoch

theorem pulse : s.pulse.SessionLaw := by
  unfold State.pulse
  dsimp only
  split
  · exact (h.reference _).releaseEpoch
  · exact (h.reference _).checkPulse.releaseEpoch

theorem missPulse : s.missPulse.SessionLaw := by
  unfold State.missPulse
  dsimp only
  split
  · exact (h.reference _).lossOfLock
  · exact h.reference _

/-! #### The dispatcher, whatever the request -/

theorem openSession (keepalive : Word16) : (answerOpenSession keepalive s).1.SessionLaw := by
  unfold answerOpenSession
  split
  · exact h
  · exact State.openSession_sessionLaw _ keepalive

end State.SessionLaw

/-- Of the requests admitted without a session all but Open Session and Reset Part answer at once and change nothing (R168
step 3). -/
theorem admittedClosed_cases {i : Instr} {f : Frame} (hi : i.frame = some f ∨ f.command = some i)
    (ha : admittedClosed f.kind = true) :
    (∃ tag keepalive, i = .openSession tag keepalive) ∨ (∃ tag, i = .resetPart tag) ∨
      ∀ s, ∃ status fields, ownerOf i s = (s, .say status fields) := by
  rcases hi with hi | hi
  · cases i with
    | openSession tag keepalive => exact .inl ⟨tag, keepalive, rfl⟩
    | resetPart tag => exact .inr (.inl ⟨tag, rfl⟩)
    | identify | ping | badKindFrame => exact .inr (.inr fun s => ⟨_, _, rfl⟩)
    | _ => cases hi <;> dsimp only at ha <;> exact absurd ha (by decide)
  · obtain ⟨kind, tag, payload⟩ := f
    rw [admittedClosed_iff] at ha
    simp only [List.mem_cons, List.not_mem_nil, or_false] at ha
    obtain rfl | rfl | rfl | rfl := ha
    · match payload, hi with
      | [], hi => cases hi; exact .inr (.inr fun s => ⟨_, _, rfl⟩)
    · match payload, hi with
      | [k0, k1], hi => cases hi; exact .inl ⟨_, _, rfl⟩
    · cases hi; exact .inr (.inr fun s => ⟨_, _, rfl⟩)
    · match payload, hi with
      | [], hi => cases hi; exact .inr (.inl ⟨_, rfl⟩)

theorem answerOpenSession_replies (keepalive : Word16) (s : State) :
    ∃ status fields, (answerOpenSession keepalive s).2 = .say status fields := by
  unfold answerOpenSession
  split
  · exact ⟨_, _, rfl⟩
  · exact ⟨_, _, rfl⟩

namespace State.SessionLaw

variable {s : State} (h : s.SessionLaw)
include h

/-- Whatever an admitted request's owner answers keeps the law, and a request is deferred with a session open alone. -/
theorem answer {f : Frame} {i : Instr} (hi : i.frame = some f ∨ f.command = some i)
    (ha : s.isOpen = true ∨ admittedClosed f.kind = true) :
    (ownerOf i s).1.SessionLaw ∧ ∀ owner, (ownerOf i s).2 = .deferred owner → (ownerOf i s).1.isOpen = true := by
  by_cases hopening : ∃ tag keepalive, i = .openSession tag keepalive
  · obtain ⟨tag, keepalive, rfl⟩ := hopening
    obtain ⟨status, fields, hreply⟩ := answerOpenSession_replies keepalive s
    exact ⟨h.openSession keepalive, fun owner hdefers => nomatch hreply.symm.trans hdefers⟩
  by_cases hclosing : ∃ tag, i = .closeSession tag
  · obtain ⟨tag, rfl⟩ := hclosing
    exact ⟨s.endSession_answerDeferred_sessionLaw, nofun⟩
  cases hopen : s.isOpen with
  | true =>
    have hsession := (ownerOf_control i s (fun tag keepalive hi => hopening ⟨tag, keepalive, hi⟩)
      fun tag hi => hclosing ⟨tag, hi⟩).1
    have hkept : (ownerOf i s).1.isOpen = true := by rw [State.isOpen, hsession]; exact hopen
    exact ⟨h.congr hsession fun hclosed => absurd (hopen.symm.trans hclosed) (by decide), fun _ _ => hkept⟩
  | false =>
    have hadmitted := ha.resolve_left (Bool.eq_false_iff.mp hopen)
    obtain hopens | ⟨tag, rfl⟩ | hplain := admittedClosed_cases hi hadmitted
    · exact absurd hopens hopening
    · exact ⟨h.congr rfl fun _ q => { q with }, nofun⟩
    · obtain ⟨status, fields, hanswer⟩ := hplain s
      rw [hanswer]
      exact ⟨h, nofun⟩

theorem execute {f : Frame} {i : Instr} (hi : i.frame = some f ∨ f.command = some i)
    (ha : s.isOpen = true ∨ admittedClosed f.kind = true) : (s.execute f (ownerOf i)).SessionLaw := by
  obtain ⟨hlaw, hdefers⟩ := h.answer hi ha
  cases hanswer : ownerOf i s with
  | mk s' answer =>
    rw [hanswer] at hlaw hdefers
    cases answer with
    | reply status fields gates =>
      rw [State.execute_reply hanswer]
      exact (hlaw.cacheReply _).congr rfl fun _ q => { q with }
    | deferred owner =>
      rw [State.execute_deferred hanswer]
      exact hlaw.congr rfl fun hclosed => absurd ((hdefers owner rfl).symm.trans hclosed) (by decide)

end State.SessionLaw

/-- The session law is kept under every operation of a step. -/
theorem State.sessionLaw_invariant : State.Invariant State.SessionLaw where
  pending _ _ h := h.congr rfl fun _ q => { q with }
  choices _ _ h := h.congr rfl fun _ q => { q with }
  advance _ n h := h.advance n
  assemble _ _ _ _ h := h.congr rfl fun _ q => { q with }
  linkFault _ k h := h.linkFault k
  restartSilence _ h := h.restartSilence
  byteDropped _ h := h.congr rfl fun _ q => { q with }
  byteTaken _ _ _ h := h.congr rfl fun _ q => { q with }
  pushReply _ _ _ h := h.congr rfl fun _ q => { q with }
  cacheReply _ r h := h.cacheReply r
  execute _ _ _ hi ha _ h := h.execute hi ha
  send _ _ h := h.congr rfl fun _ q => { q with }
  noticeTaken _ _ h := h.congr rfl fun _ q => { q with }
  replyTaken _ _ _ _ h := h.congr rfl fun _ q => { q with }
  eventTaken _ _ _ ht h := h.eventTaken ht
  resetReplyTaken _ h := h.congr rfl fun _ q => { q with }
  loseLink s _ := s.loseLink_sessionLaw
  beginReset _ _ _ := State.reset_sessionLaw.congr rfl fun _ q => { q with }
  endReset _ _ h := h.congr rfl fun _ q => { q with }
  endStartUp _ h := h.congr rfl fun _ q => { q with }
  freshSample _ h := h.congr rfl fun _ q => { q with }
  showLevel _ _ _ h := h.congr rfl fun _ q => { q with }
  joinSample _ _ h := h.congr rfl fun _ q => { q with }
  acceptEdge _ l h := h.acceptEdge l
  pulse _ h := h.pulse
  missPulse _ h := h.missPulse
  discardFiring s k h := h.still (s.discardFiring_control k).1 fun _ q => q.discardFiring k
  endGate s t h := h.still (s.endGate_control t).1 fun _ q => q.endGate t
  resumeReleased s t h := h.still (s.resumeReleased_control t).1 fun _ q => q.resumeReleased t
  expireRead s h := h.still s.expireRead_control.1 fun _ q => State.expireRead_none q.waiting
  startEffect s t h := h.still (s.startEffect_control t).1 fun _ q => q.startEffect t
  releaseEffect s t h := h.still (s.releaseEffect_control t).1 fun _ q => q.releaseEffect t
  trackActions s t h := h.still (s.trackActions_control t).1 fun _ q => q.trackActions t

/-- Settles O59: the session law is an invariant of the operations of a step. -/
theorem stepsKeepTheSessionLaw : Obligations.StepsKeepTheSessionLaw :=
  fun _ _ h ht => State.sessionLaw_invariant.step h ht

end Sys2Proof.Machine
end

section
/-! Frames spell their commands: the layouts of R187 and R189, written and read. -/
namespace Sys2Proof

/-- The frame of every well-formed command fits the link, and its length its kind (R162, R187): the payloads of a free length by
their bounds, the others by their one length. -/
theorem Instr.frame_fits (i : Instr) : Laws.Frames.Statement i := by
  cases i with
  | ping tag payload => exact Laws.Frames.ping tag payload
  | appendSteps tag page reserved records => exact Laws.Frames.appendSteps tag page reserved records
  | badKindFrame tag kind payload => exact Laws.Frames.badKindFrame tag kind payload
  | _ => rintro f - ⟨⟩ <;> exact ⟨Nat.le_of_ble_eq_true rfl, fun _ => rfl⟩

/-- A frame of Start Track spells the start of its mode, stamp and offset (R186, R187). -/
theorem Frame.command_start (tag track mode options trigger : Byte) (time : Stamp) (offset : Word32) :
    Frame.command ⟨0x33, tag, [track, mode, options, trigger] ++ le48 time ++ le32 offset⟩ =
      startCommand tag track mode options trigger time offset :=
  congrArg₂ (startCommand tag track mode options trigger) (ofLe48_le48 time) (ofLe32_le32 offset)

/-- A frame of a kind that is no request kind spells BAD_KIND_FRAME (R168 step 1). -/
theorem Frame.command_badKind {f : Frame} (h : ¬isRequestKind f.kind = true) :
    f.command = some (.badKindFrame f.tag f.kind f.payload) := if_neg h

/-- Reading the frame of a well-formed command gives the command back: bytes are themselves, and the numbers and step records
read back as they were written (R186, R187, R189). -/
theorem Instr.command_frame {i : Instr} {f : Frame} (hw : i.wellFormed = true) (hf : i.frame = some f) :
    f.command = some i := by
  cases i with
  | identify | closeSession | ping | resetPart | readTime | setTick | readReference | configureLine | readLines | sealPage
  | discardPage | readPage | readPool | queuePage | flushQueue | stopTrackAbort | stopTrackEnd | holdTrack | releaseTrack
  | readTrack | armTrigger | disarmTrigger | readTrigger => cases hf; rfl
  | openSession tag keepalive =>
    cases hf; exact congrArg (fun k => some (Instr.openSession tag k)) (ofLe16_le16 keepalive)
  | ackEvents tag seq => cases hf; exact congrArg (fun n => some (Instr.ackEvents tag n)) (ofLe16_le16 seq)
  | replayEvents tag seq => cases hf; exact congrArg (fun n => some (Instr.replayEvents tag n)) (ofLe16_le16 seq)
  | setJournal tag watermark => cases hf; exact congrArg (fun w => some (Instr.setJournal tag w)) (ofLe16_le16 watermark)
  | setReference tag interval window =>
    cases hf
    exact congrArg₂ (fun n w => some (Instr.setReference tag n w)) (ofLe32_le32 interval) (ofLe16_le16 window)
  | openPage tag period repeats flags reserved =>
    cases hf
    exact congrArg₂ (fun p r => some (Instr.openPage tag p r flags reserved)) (ofLe32_le32 period) (ofLe16_le16 repeats)
  | configureTrack tag track enable policy options group rest =>
    cases hf
    exact congrArg₂ (fun g r => some (Instr.configureTrack tag track enable policy options g r)) (ofLe16_le16 group)
      (ofLe16_le16 rest)
  | readJournal tag ack maximum reserved wait =>
    cases hf
    exact congrArg₂ (fun a w => some (Instr.readJournal tag a maximum reserved w)) (ofLe16_le16 ack) (ofLe16_le16 wait)
  | startTrackAt tag track options trigger time offset =>
    cases hf; exact Frame.command_start tag track 0 options trigger time offset
  | startTrackAfter tag track options trigger time offset =>
    cases hf; exact Frame.command_start tag track 1 options trigger time offset
  | startTrackOnTrigger tag track options trigger time offset =>
    cases hf; exact Frame.command_start tag track 2 options trigger time offset
  | startTrackAtEpoch tag track options trigger time offset =>
    cases hf; exact Frame.command_start tag track 3 options trigger time offset
  | appendSteps tag page reserved records =>
    cases hf
    exact congrArg (Option.map (Instr.appendSteps tag page reserved)) (StepRecord.ofBytes_bytes records)
  | badKindFrame tag kind payload =>
    cases hf
    obtain ⟨hkind, -⟩ := Bool.and_eq_true_iff.mp hw
    exact Frame.command_badKind (by simpa using hkind)
  | _ => cases hf

/-- Settles O12: the frame reads back, and its length is the law of frames. -/
theorem framesSpellTheirCommands : Obligations.FramesSpellTheirCommands :=
  fun i f hw hf => ⟨Instr.command_frame hw hf, i.frame_fits f hw hf⟩

end Sys2Proof
end

section
/-! Set Journal and the watermark (R143). -/
namespace Sys2Proof.Machine

theorem isRequest_setJournal {tag : Byte} {watermark : Word16} : IsRequest (.setJournal tag watermark) 0x49 tag :=
  ⟨fun _ => rfl, _, rfl, rfl, rfl⟩

theorem answerSetJournal_accepted {watermark : Word16} (h : watermark.toNat ≤ 256) (s : State) :
    answerSetJournal watermark s =
      ({ s with journal := { s.journal with watermark := watermark.toNat } },
        .say .ok (le16 watermark ++ u16 s.journal.records.length)) := if_neg (Nat.not_lt.mpr h)

theorem answerSetJournal_badValue {watermark : Word16} (h : 256 < watermark.toNat) (s : State) :
    answerSetJournal watermark s = (s, .say .badValue (zeros 4)) := if_pos h

/-- A watermark of 0 turns the notice off (R143, R144). -/
theorem State.noticeJournal_off {s : State} (h : s.journal.watermark = 0) : s.noticeJournal = s :=
  State.noticeJournal_not_due fun ⟨hmark, _⟩ => hmark h

/-- Settles O49: an executed Set Journal by its one check, and the watermark under the notice, a reset and a session end. -/
theorem setJournalStoresTheWatermark : Obligations.SetJournalStoresTheWatermark := by
  unfold Obligations.SetJournalStoresTheWatermark
  refine ⟨fun s tag watermark _ hx => ⟨fun hfits => ?_, fun habove => ?_⟩, fun s => State.noticeJournal_off, rfl,
    fun _ _ => rfl, fun s => ?_⟩
  · rw [← s.restartSilence_journal]
    exact isRequest_setJournal.reply hx rfl (answerSetJournal_accepted hfits _)
  · exact isRequest_setJournal.reply hx rfl (answerSetJournal_badValue habove _)
  · rw [s.endSession_journal]

end Sys2Proof.Machine
end

section
/-! The step with a command waiting. -/
namespace Sys2Proof.Machine

/-- Settles O1: of the step's two branches, a queue with a command in front selects the first; the model's choice among due
actions and the clock's period stand in the other. -/
theorem stepRunsTheFrontCommand : Obligations.StepRunsTheFrontCommand := by
  unfold Obligations.StepRunsTheFrontCommand
  intro s c rest hpending
  rw [step, hpending]

end Sys2Proof.Machine
end

section
/-! Configure Track (R50 to R56). -/
namespace Sys2Proof.Machine

/-! ### The checks -/

theorem onlyFlags_two_iff (options : Byte) : onlyFlags 2 options = true ↔ options.toNat < 4 := decide_eq_true_iff

/-- The states that fix a track's lines are those that are neither DISABLED, nor IDLE, nor FAULTED (R50). -/
theorem TrackState.fixesGroup_iff (st : TrackState) :
    st.fixesGroup = true ↔ st ≠ .disabled ∧ st ≠ .idle ∧ st ≠ .faulted := by
  cases st <;> simp [TrackState.fixesGroup]

theorem State.allOutputs_iff (s : State) (group : LineSet) :
    s.allOutputs group = true ↔ ∀ l : LineId, group.getLsbD l = true → ∃ driven, s.lines[l].role = .output driven := by
  rw [State.allOutputs, allLines, List.all_eq_true]
  refine forall_congr' fun l => ⟨fun h hl => ?_, fun h _ => ?_⟩
  · have houtput := h (List.mem_finRange l)
    cases hrole : s.lines[l].role with
    | output driven => exact ⟨driven, rfl⟩
    | _ => rw [hl, hrole] at houtput; cases houtput
  · cases hl : group.getLsbD l with
    | false => rfl
    | true =>
      obtain ⟨driven, hd⟩ := h hl
      rw [hd]
      rfl

theorem State.disjointFromOthers_iff (s : State) (t : TrackId) (group : LineSet) :
    s.disjointFromOthers t group = true ↔ ∀ u : TrackId, u ≠ t → s.tracks[u].group &&& group = 0 := by
  simp only [State.disjointFromOthers, allTracks, List.all_eq_true, List.mem_finRange, true_imp_iff, Bool.or_eq_true,
    beq_iff_eq]
  exact forall_congr' fun u => or_iff_not_imp_left

/-- What Configure Track checks of the lines: outputs, of no other track, and all that the queued pages touch (R50 check 4). -/
def State.GroupFree (s : State) (t : TrackId) (group : LineSet) : Prop :=
  (∀ l : LineId, group.getLsbD l = true → ∃ driven, s.lines[l].role = .output driven) ∧
    (∀ u : TrackId, u ≠ t → s.tracks[u].group &&& group = 0) ∧
    ∀ q ∈ s.tracks[t].queue, s.pages[q].footprint &&& ~~~group = 0

theorem State.groupFree_iff (s : State) (t : TrackId) (group : LineSet) :
    (s.allOutputs group && s.disjointFromOthers t group &&
      s.tracks[t].queue.all fun p => within s.pages[p].footprint group) = true ↔ s.GroupFree t group := by
  simp only [Bool.and_eq_true, State.allOutputs_iff, State.disjointFromOthers_iff, List.all_eq_true, within_iff, and_assoc,
    State.GroupFree]

/-! ### The answers -/

theorem State.configureFields_track (u : State) (t : TrackId) (taken : Bool) :
    u.configureFields (BitVec.ofNat 8 t.val) taken = u8 t.val ++ u8 u.tracks[t].state.code ++ u8 taken.toNat := by
  rw [State.configureFields, State.stateCode_track]
  cases taken <;> rfl

section
variable {u : State} {t : TrackId} {enable policy options : Byte} {group rest : LineSet}

theorem answerConfigureTrack_disabled (hfix : u.tracks[t].state.fixesGroup = false) (hq : u.tracks[t].queue = []) :
    answerConfigureTrack (BitVec.ofNat 8 t.val) 0 policy options group rest u =
      (u.disableTrack t, .say .ok (u8 t.val ++ u8 0 ++ u8 0)) := by
  simp only [answerConfigureTrack, idBelow_track, if_true, hfix, hq, State.configureFields_track]
  rw [State.disableTrack, State.modifyTrack_self]
  rfl

theorem answerConfigureTrack_disable_busy (h : u.tracks[t].state.fixesGroup = true ∨ u.tracks[t].queue ≠ []) :
    answerConfigureTrack (BitVec.ofNat 8 t.val) 0 policy options group rest u =
      (u, .say .busy (u8 t.val ++ u8 u.tracks[t].state.code ++ u8 0)) := by
  simp only [answerConfigureTrack, idBelow_track, if_true, State.configureFields_track]
  exact if_pos (by simpa using h)

theorem answerConfigureTrack_badValue (he : enable ≠ 0)
    (h : Policy.ofByte policy = none ∨ group = 0 ∨ 4 ≤ options.toNat ∨ rest &&& ~~~group ≠ 0) :
    answerConfigureTrack (BitVec.ofNat 8 t.val) enable policy options group rest u =
      (u, .say .badValue (u8 t.val ++ u8 u.tracks[t].state.code ++ u8 0)) := by
  simp only [answerConfigureTrack, idBelow_track, if_neg he, State.configureFields_track]
  cases hp : Policy.ofByte policy with
  | none => rfl
  | some p =>
    refine if_pos ?_
    rcases h with h | h | h | h
    · rw [hp] at h; cases h
    · exact .inl h
    · exact .inr (.inl (by rw [Bool.not_eq_true', Bool.eq_false_iff, Ne, onlyFlags_two_iff]; exact Nat.not_lt.mpr h))
    · exact .inr (.inr (by rw [Bool.not_eq_true', Bool.eq_false_iff, Ne, within_iff]; exact h))

/-- With its fields in range Configure Track checks the group against the state, then the lines (R50). -/
theorem answerConfigureTrack_inRange (he : enable ≠ 0) {p : Policy} (hp : Policy.ofByte policy = some p) (hg : group ≠ 0)
    (ho : options.toNat < 4) (hr : rest &&& ~~~group = 0) :
    answerConfigureTrack (BitVec.ofNat 8 t.val) enable policy options group rest u =
      if u.tracks[t].state.fixesGroup ∧ group ≠ u.tracks[t].group then
        (u, .say .busy (u8 t.val ++ u8 u.tracks[t].state.code ++ u8 0))
      else if !(u.allOutputs group && u.disjointFromOthers t group &&
          u.tracks[t].queue.all fun p => within u.pages[p].footprint group) then
        (u, .say .footprint (u8 t.val ++ u8 u.tracks[t].state.code ++ u8 0))
      else
        let u' := u.enableTrack t group rest p (options.getLsbD 0) (options.getLsbD 1)
        (u', .say .ok (u8 t.val ++ u8 u'.tracks[t].state.code ++ u8 u.tracks[t].state.takesPending.toNat)) := by
  simp only [answerConfigureTrack, idBelow_track, if_neg he, State.configureFields_track, hp]
  refine (if_neg ?_).trans rfl
  rw [(within_iff rest group).mpr hr, (onlyFlags_two_iff options).mpr ho]
  exact fun h => h.elim hg nofun

end

/-! ### What an accepted Configure Track does -/

theorem getLsbD_sdiff (a b : LineSet) (l : LineId) : (a &&& ~~~b).getLsbD l = (a.getLsbD l && !b.getLsbD l) := by
  rw [BitVec.getLsbD_and, BitVec.getLsbD_not, decide_eq_true l.isLt, Bool.true_and]

/-- A state is another in which a track has taken a record and its group is formed: the lines of the group at their new rest
levels, those that leave the group of an enabled track at their own (R51 to R53). -/
structure State.Formed (s u : State) (t : TrackId) (group rest : LineSet) (tr : Track) : Prop where
  frame : u = { s with tracks := s.tracks.set t tr, lines := u.lines }
  line : ∀ l : LineId, u.lines[l] =
    if group.getLsbD l then { s.lines[l] with rest := rest.getLsbD l }.toRest
    else if s.tracks[t].state ≠ .disabled ∧ s.tracks[t].group.getLsbD l then s.lines[l].toRest else s.lines[l]

theorem State.Formed.track {s u : State} {t : TrackId} {group rest : LineSet} {tr : Track} (h : s.Formed u t group rest tr) :
    u.tracks[t] = tr := by
  rw [h.frame]
  exact State.modifyTrack_self s t fun _ => tr

section
variable (s : State) (t : TrackId) (group rest : LineSet) (policy : Policy) (started retired : Bool)

/-- A line whose rest level is stored and that goes to it (R51). -/
theorem State.storeRest_restLines_get (l : LineId) :
    ((s.storeRest group rest).restLines group).lines[l] =
      if group.getLsbD l then { s.lines[l] with rest := rest.getLsbD l }.toRest else s.lines[l] := by
  rw [State.restLines_get, State.storeRest, State.mapLines_get]
  split <;> rfl

/-- The state that a track which is not HOLDING, PLAYING or STALLED has once it is configured (R51 to R53). -/
def TrackState.enabled (st : TrackState) : TrackState := if st = .disabled then .idle else st

theorem State.enableTrack_disabled (hst : s.tracks[t].state = .disabled) :
    s.enableTrack t group rest policy started retired =
      ((s.modifyTrack t fun tr => { tr.configured group policy started retired with state := .idle }).storeRest group
        rest).restLines group := by
  rw [State.enableTrack, hst]

theorem State.enableTrack_idle (hst : s.tracks[t].state = .idle ∨ s.tracks[t].state = .faulted) :
    s.enableTrack t group rest policy started retired =
      (((s.restLines (s.tracks[t].group &&& ~~~group)).modifyTrack t fun tr =>
        tr.configured group policy started retired).storeRest group rest).restLines group := by
  rcases hst with hst | hst <;> rw [State.enableTrack, hst]

theorem State.enableTrack_armed {a : ArmedStart} (hst : s.tracks[t].state = .armed a) :
    s.enableTrack t group rest policy started retired =
      ((s.modifyTrack t fun tr => tr.configured group policy started retired).storeRest group rest).restLines group := by
  rw [State.enableTrack, hst]

/-- On a track that is DISABLED, IDLE, ARMED or FAULTED, Configure Track forms the group (R51 to R53). An ARMED track keeps its
group. -/
theorem State.enableTrack_formed (hst : s.tracks[t].state.context = none) (hh : ∀ r, s.tracks[t].state ≠ .holding r)
    (harmed : ∀ a, s.tracks[t].state = .armed a → group = s.tracks[t].group) :
    s.Formed (s.enableTrack t group rest policy started retired) t group rest
      { s.tracks[t].configured group policy started retired with state := s.tracks[t].state.enabled } := by
  have hkept (hd : s.tracks[t].state ≠ .disabled) : s.tracks[t].state.enabled = s.tracks[t].state := if_neg hd
  have hidle (h : s.tracks[t].state = .idle ∨ s.tracks[t].state = .faulted) :
      s.Formed (s.enableTrack t group rest policy started retired) t group rest
        { s.tracks[t].configured group policy started retired with state := s.tracks[t].state.enabled } := by
    have hd : s.tracks[t].state ≠ .disabled := by rcases h with h | h <;> rw [h] <;> exact nofun
    rw [State.enableTrack_idle s t group rest policy started retired h, hkept hd]
    refine ⟨rfl, fun l => (State.storeRest_restLines_get _ group rest l).trans ?_⟩
    rw [State.modifyTrack_lines, State.restLines_get, getLsbD_sdiff]
    by_cases hg : group.getLsbD l = true
    · rw [if_pos hg, if_pos hg, if_neg]
      rw [hg, Bool.not_true, Bool.and_false]
      exact Bool.false_ne_true
    · rw [if_neg hg, if_neg hg, Bool.eq_false_iff.mpr hg, Bool.not_false, Bool.and_true]
      simp only [ne_eq, hd, not_false_eq_true, true_and]
  cases hstate : s.tracks[t].state with
  | disabled =>
    rw [← hstate, State.enableTrack_disabled s t group rest policy started retired hstate]
    refine ⟨by rw [hstate]; rfl, fun l => (State.storeRest_restLines_get _ group rest l).trans ?_⟩
    rw [State.modifyTrack_lines]
    simp only [hstate, ne_eq, not_true, false_and, if_false]
  | idle => exact hstate ▸ hidle (.inl hstate)
  | faulted => exact hstate ▸ hidle (.inr hstate)
  | armed a =>
    rw [← hstate, hkept (by rw [hstate]; exact nofun), State.enableTrack_armed s t group rest policy started retired hstate]
    refine ⟨rfl, fun l => (State.storeRest_restLines_get _ group rest l).trans ?_⟩
    rw [State.modifyTrack_lines, ← harmed a hstate]
    by_cases hg : group.getLsbD l = true
    · rw [if_pos hg, if_pos hg]
    · rw [if_neg hg, if_neg hg, if_neg fun h => hg h.2]
  | holding r => exact absurd hstate (hh r)
  | playing c => rw [hstate] at hst; cases hst
  | stalled c g => rw [hstate] at hst; cases hst

/-- On a HOLDING track the rest levels are stored and the lines stay (R53). -/
theorem State.enableTrack_holding {r : Option Stamp} (hst : s.tracks[t].state = .holding r) :
    s.enableTrack t group rest policy started retired =
      (s.modifyTrack t fun tr => tr.configured group policy started retired).storeRest group rest := by
  rw [State.enableTrack, hst]

/-- On a track that plays a page the configuration becomes the pending one (R54). -/
theorem State.enableTrack_playing (hst : s.tracks[t].state.context ≠ none) :
    s.enableTrack t group rest policy started retired =
      s.modifyTrack t fun tr => { tr with pendingConfig := some ⟨policy, rest, started, retired⟩ } := by
  rw [State.enableTrack]
  cases hstate : s.tracks[t].state with
  | playing c => rfl
  | stalled c g => rfl
  | _ => rw [hstate] at hst; exact absurd rfl hst

end

theorem TrackState.takesPending_eq_isSome (st : TrackState) : st.takesPending = st.context.isSome := by
  cases st <;> rfl

theorem isRequest_configureTrack {tag track enable policy options : Byte} {group rest : LineSet} :
    IsRequest (.configureTrack tag track enable policy options group rest) 0x30 tag := ⟨fun _ => rfl, _, rfl, rfl, rfl⟩

/-- Settles O24: the checks in their order, and the disable. -/
theorem configureTrackDisablesOrRefuses : Obligations.ConfigureTrackDisablesOrRefuses := by
  unfold Obligations.ConfigureTrackDisablesOrRefuses
  intro s tag t policy options group rest _ hx
  obtain ⟨session, hb⟩ := s.restartSilence_eq
  simp only [hb, ← TrackState.fixesGroup_iff]
  refine ⟨fun hfix hq => ?_, fun h => ?_, fun enable he => ⟨fun h => ?_, fun p hp hg ho hr => ⟨fun hfix hne => ?_, fun hkeep h => ?_⟩⟩⟩
  · refine ⟨_, isRequest_configureTrack.reply hx hb (answerConfigureTrack_disabled (by simpa using hfix) hq), rfl, fun l => ?_⟩
    exact State.applyRest_line _ t l
  · exact isRequest_configureTrack.reply hx hb (answerConfigureTrack_disable_busy h)
  · exact isRequest_configureTrack.reply hx hb (answerConfigureTrack_badValue he h)
  · refine isRequest_configureTrack.reply hx hb ((answerConfigureTrack_inRange he hp hg ho hr).trans ?_)
    exact if_pos ⟨hfix, hne⟩
  · refine isRequest_configureTrack.reply hx hb ((answerConfigureTrack_inRange he hp hg ho hr).trans ?_)
    refine (if_neg fun hbusy => hbusy.2 (hkeep hbusy.1)).trans (if_pos ?_)
    rw [Bool.not_eq_true', Bool.eq_false_iff, Ne, State.groupFree_iff]
    rintro ⟨houtputs, hothers, hqueue⟩
    rcases h with ⟨l, hl, hno⟩ | ⟨u, hu, hmeet⟩ | ⟨q, hq, hout⟩
    · obtain ⟨driven, hd⟩ := houtputs l hl
      exact hno driven hd
    · exact hmeet (hothers u hu)
    · exact hout (hqueue q hq)

/-- An accepted Configure Track with enable set is answered with the state that its track then has (R56). -/
theorem exec_configureTrack_enable {s u : State} (hb : s.restartSilence = u) {tag enable policy options : Byte} {t : TrackId}
    {group rest : LineSet} {p : Policy} (hx : s.Executes 0x30 tag) (he : enable ≠ 0) (hp : Policy.ofByte policy = some p)
    (ho : options.toNat < 4) (hg : group ≠ 0) (hr : rest &&& ~~~group = 0) (hfree : u.GroupFree t group)
    (hkeep : u.tracks[t].state.fixesGroup = true → group = u.tracks[t].group) {w : State} {x : Track}
    (hw : u.enableTrack t group rest p (options.getLsbD 0) (options.getLsbD 1) = w) (htrack : w.tracks[t] = x)
    {waits : Bool} (hwaits : u.tracks[t].state.context.isSome = waits) :
    exec (.configureTrack tag (BitVec.ofNat 8 t.val) enable policy options group rest) s =
      .next (w.answered 0xB0 tag .ok (u8 t.val ++ u8 x.state.code ++ u8 waits.toNat)) := by
  subst hw htrack hwaits
  rw [← TrackState.takesPending_eq_isSome]
  refine isRequest_configureTrack.reply hx hb ((answerConfigureTrack_inRange he hp hg ho hr).trans ?_)
  refine (if_neg fun h => h.2 (hkeep h.1)).trans (if_neg ?_)
  rw [(State.groupFree_iff u t group).mpr hfree]
  decide

/-- Settles O23: the accepted request's reply, and the effect by the track's state. -/
theorem configureTrackFormsTheGroup : Obligations.ConfigureTrackFormsTheGroup := by
  unfold Obligations.ConfigureTrackFormsTheGroup
  intro s tag t enable policy options group rest p _ hx he hp ho hg hr houtputs hothers hqueue
  obtain ⟨session, hb⟩ := s.restartSilence_eq
  simp only [hb]
  have hfree : State.GroupFree { s with session := session } t group := ⟨houtputs, hothers, hqueue⟩
  have hanswered (hkeep : s.tracks[t].state.fixesGroup = true → group = s.tracks[t].group) {w : State} {x : Track} :=
    exec_configureTrack_enable (w := w) (x := x) hb hx he hp ho hg hr hfree hkeep
  have hformed (hst : s.tracks[t].state.context = none) (hh : ∀ r, s.tracks[t].state ≠ .holding r)
      (harmed : ∀ a, s.tracks[t].state = .armed a → group = s.tracks[t].group) :=
    State.enableTrack_formed { s with session := session } t group rest p (options.getLsbD 0) (options.getLsbD 1) hst hh harmed
  have houtput (l : LineId) (hl : group.getLsbD l = true) :
      ({ s.lines[l] with rest := rest.getLsbD l } : Line).toRest = ⟨rest.getLsbD l, .output (rest.getLsbD l)⟩ := by
    obtain ⟨driven, hd⟩ := houtputs l hl
    exact Line.toRest_output hd
  refine ⟨fun hst => ?_, fun ⟨a, hst⟩ hsame => ?_, fun ⟨r, hst⟩ hsame => ?_, fun hst hsame => ?_⟩
  · have hcontext : s.tracks[t].state.context = none := by rcases hst with h | h | h <;> rw [h] <;> rfl
    have hfix : s.tracks[t].state.fixesGroup = false := by rcases hst with h | h | h <;> rw [h] <;> rfl
    have hf := hformed hcontext (fun r hr => by rw [hr] at hfix; cases hfix) fun a ha => by rw [ha] at hfix; cases hfix
    refine ⟨_, ⟨hanswered (fun h => ?_) rfl hf.track (by rw [hcontext]; rfl), hf.frame⟩, fun l => ?_⟩
    · rw [hfix] at h; cases h
    · rw [hf.line]
      split
      · rename_i hl; exact houtput l hl
      · rfl
  · have hcontext : s.tracks[t].state.context = none := by rw [hst]; rfl
    have hkept : s.tracks[t].state.enabled = s.tracks[t].state := if_neg (by rw [hst]; exact nofun)
    have hf := hformed hcontext (fun r hr => by rw [hst] at hr; cases hr) fun _ _ => hsame
    rw [hkept] at hf
    refine ⟨_, ⟨hanswered (fun _ => hsame) rfl hf.track (by rw [hcontext]; rfl), hf.frame⟩, fun l => ?_⟩
    rw [hf.line]
    split
    · rename_i hl; exact houtput l hl
    · rename_i hl
      exact if_neg fun h => hl (hsame ▸ h.2)
  · have hholds := State.enableTrack_holding { s with session := session } t group rest p (options.getLsbD 0)
      (options.getLsbD 1) hst
    refine ⟨_, ⟨hanswered (x := s.tracks[t].configured group p (options.getLsbD 0) (options.getLsbD 1)) (fun _ => hsame)
      hholds ?_ (by rw [hst]; rfl), rfl⟩, fun l => ?_⟩
    · rw [State.storeRest_tracks]
      exact State.modifyTrack_self _ t _
    · exact State.mapLines_get _ group _ l
  · have hplays := State.enableTrack_playing { s with session := session } t group rest p (options.getLsbD 0)
      (options.getLsbD 1) hst
    exact ⟨hanswered (fun _ => hsame) hplays (State.modifyTrack_self _ t _) (Option.isSome_iff_ne_none.mpr hst), trivial⟩

end Sys2Proof.Machine
end

section
/-! The law of groups and levels (R28, R29, R121), track by track, and the changes that keep it. -/
namespace Sys2Proof.Machine

/-! ### The law, track by track -/

/-- A page's footprint is that of its steps, and lies within a group (R16, R29). -/
def Page.Fits (pg : Page) (group : LineSet) : Prop :=
  pg.footprint = footprintOf pg.steps ∧ within pg.footprint group = true

/-- A playback touches lines of a group alone: its page's and those of its pending pulse ends (R29, R35). -/
def Playback.Fits (c : Playback) (pages : Vector Page 64) (group : LineSet) : Prop :=
  pages[c.page].Fits group ∧ ∀ e ∈ c.pulseEnds, within e.lines group = true

/-- A track's group is of outputs, empty if the track is DISABLED, and what stands on the track fits it (R28, R29). -/
structure Track.Held (tr : Track) (pages : Vector Page 64) (lines : Vector Line 16) : Prop where
  outputs : ∀ l : LineId, tr.group.getLsbD l = true → ∃ driven, lines[l].role = .output driven
  disabled : tr.state = .disabled → tr.group = 0
  queued : ∀ p ∈ tr.queue, pages[p].Fits tr.group
  playing : ∀ c, tr.state.context = some c → c.Fits pages tr.group

/-- The lines of a track in IDLE, ARMED or FAULTED stand at their rest levels (R28). -/
def Track.Rests (tr : Track) (lines : Vector Line 16) : Prop :=
  tr.state.atRest = true → ∀ l : LineId, tr.group.getLsbD l = true → lines[l].restful

/-- The law of groups and levels, the levels of one track's lines left open while that track acts. -/
structure State.HeldBut (s : State) (x : Option TrackId) : Prop where
  disjoint : ∀ t u : TrackId, t ≠ u → s.tracks[t].group &&& s.tracks[u].group = 0
  sealedExact : ∀ p : PageId, s.pages[p].state = .sealed → s.pages[p].footprint = footprintOf s.pages[p].steps
  tracks : ∀ t : TrackId, s.tracks[t].Held s.pages s.lines
  static : ∀ l : LineId, (∀ t : TrackId, s.tracks[t].group.getLsbD l = false) → s.lines[l].restful
  quiet : ∀ t : TrackId, x ≠ some t → s.tracks[t].Rests s.lines

/-- The law of groups and levels, with no track's lines left open. -/
abbrev State.Held (s : State) : Prop := s.HeldBut none

theorem within_iff_getLsbD (a b : LineSet) :
    within a b = true ↔ ∀ l : LineId, a.getLsbD l = true → b.getLsbD l = true := by
  rw [within_iff]
  constructor
  · intro h l hl
    have hbit : (a &&& ~~~b).getLsbD l = false := by rw [h]; exact BitVec.getLsbD_zero
    simpa [hl] using hbit
  · intro h
    refine BitVec.eq_of_getLsbD_eq fun i hi => ?_
    have hbit := h ⟨i, hi⟩
    cases ha : a.getLsbD i <;> simp_all

theorem not_getLsbD_of_disjoint {a b : LineSet} (h : a &&& b = 0) {l : LineId} (ha : a.getLsbD l = true) :
    b.getLsbD l = false := by
  have hbit : (a &&& b).getLsbD l = false := by rw [h]; exact BitVec.getLsbD_zero
  simpa [ha] using hbit

/-- A step of a page that fits a group touches lines of the group alone (R16, R29). -/
theorem Page.Fits.step {pg : Page} {group : LineSet} (h : pg.Fits group) {st : Step} (hst : st ∈ pg.steps) :
    within st.lines group = true := by
  obtain ⟨hexact, hwithin⟩ := h
  rw [within_iff_getLsbD] at hwithin ⊢
  intro l hl
  refine hwithin l ?_
  rw [hexact, getLsbD_footprintOf]
  exact ⟨st, hst, hl⟩

theorem Page.cleared_fits (group : LineSet) : Page.cleared.Fits group :=
  ⟨rfl, by rw [within_iff]; exact BitVec.zero_and⟩

/-- A page that leaves its track fits what it fitted (R22). -/
theorem Page.Fits.leave {pg : Page} {group : LineSet} (h : pg.Fits group) : pg.leave.Fits group := by
  unfold Page.leave
  split
  · exact h
  · exact Page.cleared_fits group

/-- Where pages are placed, the law track by track is the law of the statements. -/
theorem State.Placed.linesHeld_iff {s : State} (hp : s.Placed) : s.LinesHeld ↔ s.Held := by
  constructor
  · intro h
    have hpage (p : PageId) (t : TrackId) (hstate : s.pages[p].state = .queued ∨ s.pages[p].state = .active)
        (hfit : within s.pages[p].footprint s.tracks[t].group = true) : s.pages[p].Fits s.tracks[t].group :=
      ⟨h.footprints p (.inr hstate), hfit⟩
    refine ⟨h.disjoint, fun p hs => h.footprints p (.inl hs), fun t => ⟨h.outputs t, h.disabled t, fun p hq => ?_, fun c hc => ?_⟩,
      h.staticRest, fun t _ ht l => h.quietRest t l ht⟩
    · exact hpage p t (.inl (hp.queueOwned t p hq).1) (h.queuedFit t p hq)
    · have hactive : s.tracks[t].activePage = some c.page := by rw [Track.activePage, hc]; rfl
      exact ⟨hpage _ t (.inr (hp.activeOwned t _ hactive).1) (h.activeFit t _ hactive), fun e he => h.pulsesFit t c e hc he⟩
  · intro h
    have hactive (t : TrackId) (p : PageId) (ha : s.tracks[t].activePage = some p) : s.pages[p].Fits s.tracks[t].group := by
      obtain ⟨c, hc, rfl⟩ := Option.map_eq_some_iff.mp ha
      exact ((h.tracks t).playing c hc).1
    refine
      { disjoint := h.disjoint
        outputs := fun t => (h.tracks t).outputs
        disabled := fun t => (h.tracks t).disabled
        footprints := fun p hs => ?_
        queuedFit := fun t p hq => ((h.tracks t).queued p hq).2
        activeFit := fun t p ha => (hactive t p ha).2
        pulsesFit := fun t c e hc => ((h.tracks t).playing c hc).2 e
        staticRest := h.static
        quietRest := fun t l ht => h.quiet t nofun ht l }
    rcases hs with hs | hs | hs
    · exact h.sealedExact p hs
    · obtain ⟨t, ht⟩ := hp.queuedStands p hs
      exact ((h.tracks t).queued p ht).1
    · obtain ⟨t, ht⟩ := hp.activeStands p hs
      exact (hactive t p ht).1

/-- A state with a playback is none of rest (R28). -/
theorem TrackState.atRest_of_context {st : TrackState} {c : Playback} (h : st.context = some c) : st.atRest = false := by
  cases st with
  | playing p => rfl
  | stalled p g => rfl
  | _ => cases h

/-! ### Changes that keep the law -/

namespace State.HeldBut

variable {s s' : State} {x : Option TrackId}

/-- Groups, pages and levels are told by the pages, the tracks and the lines alone. -/
theorem congr (h : s.HeldBut x) (hp : s'.pages = s.pages) (ht : s'.tracks = s.tracks) (hl : s'.lines = s.lines) :
    s'.HeldBut x := by
  constructor
  · rw [ht]; exact h.disjoint
  · rw [hp]; exact h.sealedExact
  · rw [hp, ht, hl]; exact h.tracks
  · rw [ht, hl]; exact h.static
  · rw [ht, hl]; exact h.quiet

/-- The levels of one more track's lines are left open. -/
theorem but (h : s.Held) (t : TrackId) : s.HeldBut (some t) :=
  { h with quiet := fun u _ => h.quiet u nofun }

/-- The levels of the open track's lines are seen to. -/
theorem held {t : TrackId} (h : s.HeldBut (some t)) (hrests : s.tracks[t].Rests s.lines) : s.Held :=
  { h with quiet := fun u _ => (eq_or_ne t u).elim (fun hu => hu ▸ hrests) fun hu => h.quiet u fun heq => hu (Option.some.inj heq) }

/-- A track that plays has no lines that must rest. -/
theorem held_of_context {t : TrackId} (h : s.HeldBut (some t)) {c : Playback} (hc : s.tracks[t].state.context = some c) :
    s.Held :=
  h.held fun hrest => absurd hrest (by rw [TrackState.atRest_of_context hc]; decide)

/-- Pages change, each as one that fits what it fitted where it stands on a track. -/
theorem repage (h : s.HeldBut x) (ht : s'.tracks = s.tracks) (hl : s'.lines = s.lines)
    (hexact : ∀ p : PageId, s'.pages[p].state = .sealed → s'.pages[p].footprint = footprintOf s'.pages[p].steps)
    (hfits : ∀ (t : TrackId) (p : PageId), p ∈ s.tracks[t].queue ∨ s.tracks[t].activePage = some p →
      s.pages[p].Fits s.tracks[t].group → s'.pages[p].Fits s.tracks[t].group) : s'.HeldBut x := by
  refine ⟨by rw [ht]; exact h.disjoint, hexact, fun t => ?_, by rw [ht, hl]; exact h.static, by rw [ht, hl]; exact h.quiet⟩
  rw [ht, hl]
  have hheld := h.tracks t
  refine { hheld with
    queued := fun p hq => hfits t p (.inl hq) (hheld.queued p hq)
    playing := fun c hc => ⟨hfits t c.page (.inr ?_) (hheld.playing c hc).1, (hheld.playing c hc).2⟩ }
  rw [Track.activePage, hc]; rfl

/-- One page changes, as one that fits what it fitted. -/
theorem modifyPage (h : s.HeldBut x) (p : PageId) (f : Page → Page)
    (hexact : (f s.pages[p]).state = .sealed → (f s.pages[p]).footprint = footprintOf (f s.pages[p]).steps)
    (hfits : ∀ t : TrackId, p ∈ s.tracks[t].queue ∨ s.tracks[t].activePage = some p →
      s.pages[p].Fits s.tracks[t].group → (f s.pages[p]).Fits s.tracks[t].group) : (s.modifyPage p f).HeldBut x := by
  refine h.repage rfl rfl (fun q hq => ?_) fun t q hon hq => ?_
  all_goals
    rw [State.modifyPage_get] at *
    split <;> rename_i hqp
  · subst hqp; rw [if_pos rfl] at hq; exact hexact hq
  · rw [if_neg hqp] at hq; exact h.sealedExact q hq
  · subst hqp; exact hfits t hon hq
  · exact hq

/-- The open track changes, within its group. -/
theorem modifyTrack {t : TrackId} (h : s.HeldBut (some t)) (f : Track → Track)
    (hgroup : (f s.tracks[t]).group = s.tracks[t].group) (hheld : (f s.tracks[t]).Held s.pages s.lines) :
    (s.modifyTrack t f).HeldBut (some t) := by
  have hsame (u : TrackId) : (s.modifyTrack t f).tracks[u].group = s.tracks[u].group := by
    rw [State.modifyTrack_get]
    split
    · rename_i hu; rw [hu, hgroup]
    · rfl
  refine ⟨fun u v huv => ?_, h.sealedExact, fun u => ?_, fun l hl => ?_, fun u hu => ?_⟩
  · rw [hsame, hsame]; exact h.disjoint u v huv
  · rw [State.modifyTrack_get]
    split
    · rename_i hu; rw [hu]; exact hheld
    · exact h.tracks u
  · exact h.static l fun u => by rw [← hsame]; exact hl u
  · have hne : u ≠ t := fun heq => hu (by rw [heq])
    rw [State.modifyTrack_get, if_neg hne]
    exact h.quiet u hu

/-- Lines of the open track's group change, and stay outputs. -/
theorem mapLines {t : TrackId} (h : s.HeldBut (some t)) {mask : LineSet} (hmask : within mask s.tracks[t].group = true)
    (f : LineId → Line → Line) (hf : ∀ l ln, (∃ d, ln.role = .output d) → ∃ d, (f l ln).role = .output d) :
    (s.mapLines mask f).HeldBut (some t) := by
  rw [within_iff_getLsbD] at hmask
  have hother (l : LineId) (hl : s.tracks[t].group.getLsbD l = false) : (s.mapLines mask f).lines[l] = s.lines[l] := by
    rw [State.mapLines_get, if_neg]
    intro hm
    rw [hmask l hm] at hl
    cases hl
  refine ⟨h.disjoint, h.sealedExact, fun u => ?_, fun l hl => ?_, fun u hu hrest l hl => ?_⟩
  · refine { h.tracks u with outputs := fun l hl => ?_ }
    have hout := (h.tracks u).outputs l hl
    rw [State.mapLines_get]
    split
    · exact hf l _ hout
    · exact hout
  · rw [hother l (hl t)]
    exact h.static l hl
  · have hne : u ≠ t := fun heq => hu (by rw [heq])
    rw [hother l (not_getLsbD_of_disjoint (h.disjoint u t hne) hl)]
    exact h.quiet u hu hrest l hl

/-- Lines outside every group change, and stand at rest afterwards. -/
theorem relines (h : s.HeldBut x) (hp : s'.pages = s.pages) (ht : s'.tracks = s.tracks)
    (hgroups : ∀ (t : TrackId) (l : LineId), s.tracks[t].group.getLsbD l = true → s'.lines[l] = s.lines[l])
    (hstatic : ∀ l : LineId, (∀ t : TrackId, s.tracks[t].group.getLsbD l = false) → s'.lines[l].restful) : s'.HeldBut x := by
  refine ⟨by rw [ht]; exact h.disjoint, by rw [hp]; exact h.sealedExact, fun t => ?_, by rw [ht]; exact hstatic,
    fun t hx => ?_⟩ <;> rw [ht]
  · rw [hp]
    exact { h.tracks t with outputs := fun l hl => by rw [hgroups t l hl]; exact (h.tracks t).outputs l hl }
  · intro hrest l hl
    rw [hgroups t l hl]
    exact h.quiet t hx hrest l hl

/-- Tracks change, each within its group and to no new page, playback or rest. -/
theorem retrack (h : s.HeldBut x) (hp : s'.pages = s.pages) (hl : s'.lines = s.lines)
    (hgroup : ∀ t : TrackId, s'.tracks[t].group = s.tracks[t].group)
    (hqueue : ∀ t : TrackId, ∀ p ∈ s'.tracks[t].queue, p ∈ s.tracks[t].queue)
    (hcontext : ∀ t : TrackId, s'.tracks[t].state.context = s.tracks[t].state.context)
    (hrest : ∀ t : TrackId, s'.tracks[t].state.atRest = true → s.tracks[t].state.atRest = true)
    (hdisabled : ∀ t : TrackId, s'.tracks[t].state = .disabled → s.tracks[t].state = .disabled) : s'.HeldBut x := by
  refine ⟨fun t u => ?_, by rw [hp]; exact h.sealedExact, fun t => ⟨?_, fun hd => ?_, fun p hq => ?_, ?_⟩, ?_, fun t hx hr => ?_⟩
  · rw [hgroup, hgroup]; exact h.disjoint t u
  · rw [hgroup, hl]; exact (h.tracks t).outputs
  · rw [hgroup]; exact (h.tracks t).disabled (hdisabled t hd)
  · rw [hgroup, hp]; exact (h.tracks t).queued p (hqueue t p hq)
  · rw [hgroup, hp, hcontext]; exact (h.tracks t).playing
  · simp only [hgroup, hl]; exact h.static
  · rw [hgroup, hl]; exact h.quiet t hx (hrest t hr)

end State.HeldBut
end Sys2Proof.Machine
end

section
/-! Playback keeps the law of groups and levels (R28, R29, R32 to R49, R55, R99 to R104). -/
namespace Sys2Proof.Machine

/-! ### What a level does to a line's role -/

/-- A line stays an output when it is driven. -/
theorem Line.drive_output {ln : Line} (h : ∃ d, ln.role = .output d) (level : Bool) : ∃ d, (ln.drive level).role = .output d := by
  obtain ⟨d, hd⟩ := h
  exact ⟨level, by rw [Line.drive, hd]⟩

/-- A line stays an output when it is inverted. -/
theorem Line.toggle_output {ln : Line} (h : ∃ d, ln.role = .output d) : ∃ d, ln.toggle.role = .output d := by
  obtain ⟨d, hd⟩ := h
  exact ⟨!d, by rw [Line.toggle, hd]⟩

theorem within_refl (m : LineSet) : within m m = true := (within_iff_getLsbD m m).mpr fun _ h => h

/-! ### Track records that the law allows -/

section
variable {tr tr' : Track} {pages : Vector Page 64} {lines : Vector Line 16}

/-- A track that plays no page, and is not DISABLED, is held to what its queue needs alone. -/
theorem Track.Held.still (h : tr.Held pages lines) (hgroup : tr'.group = tr.group) (hqueue : ∀ p ∈ tr'.queue, p ∈ tr.queue)
    (hst : tr'.state.context = none) (hd : tr'.state ≠ .disabled) : tr'.Held pages lines where
  outputs := by rw [hgroup]; exact h.outputs
  disabled hs := absurd hs hd
  queued p hp := by rw [hgroup]; exact h.queued p (hqueue p hp)
  playing c hc := by rw [hst] at hc; cases hc

/-- A track that plays a page is held to that playback. -/
theorem Track.Held.plays (h : tr.Held pages lines) (hgroup : tr'.group = tr.group) (hqueue : ∀ p ∈ tr'.queue, p ∈ tr.queue)
    {c : Playback} (hst : tr'.state.context = some c) (hc : c.Fits pages tr.group) : tr'.Held pages lines where
  outputs := by rw [hgroup]; exact h.outputs
  disabled hs := by rw [hs] at hst; cases hst
  queued p hp := by rw [hgroup]; exact h.queued p (hqueue p hp)
  playing c' hc' := by rw [hgroup, ← Option.some.inj (hst.symm.trans hc')]; exact hc

end

/-- A playback of the same page with no new pulse end fits what it fitted. -/
theorem Playback.Fits.mono {p p' : Playback} {pages : Vector Page 64} {group : LineSet} (h : p.Fits pages group)
    (hpage : p'.page = p.page) (hends : ∀ e ∈ p'.pulseEnds, e ∈ p.pulseEnds) : p'.Fits pages group :=
  ⟨by simpa only [hpage] using h.1, fun e he => h.2 e (hends e he)⟩

namespace State.HeldBut

variable {s : State} {x : Option TrackId} {t : TrackId}

/-! ### Events, firings and retirements -/

theorem queueEvent (h : s.HeldBut x) (e : Event) : (s.queueEvent e).HeldBut x := h.congr (by simp) (by simp) (by simp)

theorem queueEventIf (h : s.HeldBut x) (wanted : Bool) (e : Event) : (s.queueEventIf wanted e).HeldBut x :=
  h.congr (by simp) (by simp) (by simp)

theorem compose (h : s.HeldBut x) (owner : Owner) (status : Status) (fields : List Byte) :
    (s.compose owner status fields).HeldBut x := h.congr (by simp) (by simp) (by simp)

theorem composeAborted (h : s.HeldBut x) (owner : Owner) : (s.composeAborted owner).HeldBut x :=
  h.congr (by simp) (by simp) (by simp)

theorem consume (h : s.HeldBut x) (k : TriggerId) : (s.consume k).HeldBut x := h.congr (by simp) (by simp) (by simp)

/-- A page that leaves its track leaves the law as it stands (R22). -/
theorem leavePage (h : s.HeldBut x) (p : PageId) (hfits : ∃ group, s.pages[p].Fits group) :
    (s.modifyPage p Page.leave).HeldBut x := by
  obtain ⟨group, hp⟩ := hfits
  exact h.modifyPage p _ (fun _ => hp.leave.1) fun _ _ hq => hq.leave

theorem retire (h : s.HeldBut x) (u : TrackId) {p : Playback} {group : LineSet} (hp : p.Fits s.pages group)
    (o : RetireOutcome) : (s.retire u p o).HeldBut x :=
  (h.leavePage p.page ⟨group, hp.1⟩).queueEventIf _ _

/-! ### The open track -/

theorem applyPending (h : s.HeldBut (some t)) : (s.applyPending t).HeldBut (some t) := by
  unfold State.applyPending
  split
  · exact h
  · rename_i c _
    have hstored : (s.storeRest s.tracks[t].group c.rest).HeldBut (some t) :=
      h.mapLines (within_refl _) (fun l ln => { ln with rest := c.rest.getLsbD l }) fun _ _ hd => hd
    exact hstored.modifyTrack _ rfl { hstored.tracks t with }

theorem restLines (h : s.HeldBut (some t)) {mask : LineSet} (hmask : within mask s.tracks[t].group = true) :
    (s.restLines mask).HeldBut (some t) :=
  h.mapLines hmask _ fun _ _ hd => Line.drive_output hd _

/-- Rest application sees to the levels of a track's lines (R29). -/
theorem applyRest (h : s.HeldBut (some t)) : (s.applyRest t).Held := by
  refine (h.restLines (within_refl _)).held fun _ l hl => ?_
  show (s.applyRest t).lines[l].restful
  rw [State.applyRest_line, if_pos (show s.tracks[t].group.getLsbD l = true from hl)]
  exact Line.toRest_restful _

/-- A track comes to rest in a state without a playback (R28). -/
theorem settle (h : s.HeldBut (some t)) {st : TrackState} (hst : st.context = none) (hd : st ≠ .disabled) :
    (s.settle t st).HeldBut (some t) :=
  h.modifyTrack _ rfl ((h.tracks t).still rfl (fun _ hp => hp) hst hd)

theorem settle_applyRest (h : s.HeldBut (some t)) {st : TrackState} (hst : st.context = none) (hd : st ≠ .disabled) :
    ((s.settle t st).applyRest t).Held := (h.settle hst hd).applyRest

/-- A track comes to HOLDING with its lines as they stand (R42). -/
theorem settle_holding (h : s.HeldBut (some t)) (r : Option Stamp) : (s.settle t (.holding r)).Held := by
  refine (h.settle (st := .holding r) rfl nofun).held fun hrest => ?_
  rw [State.settle_get, if_pos rfl] at hrest
  cases hrest

/-- A track goes on with a playback that fits its group. -/
theorem goOn (h : s.HeldBut (some t)) (f : Track → Track) (hgroup : (f s.tracks[t]).group = s.tracks[t].group)
    (hqueue : ∀ p ∈ (f s.tracks[t]).queue, p ∈ s.tracks[t].queue) {c : Playback} (hst : (f s.tracks[t]).state.context = some c)
    (hc : c.Fits s.pages s.tracks[t].group) : (s.modifyTrack t f).Held := by
  refine (h.modifyTrack f hgroup ((h.tracks t).plays hgroup hqueue hst hc)).held_of_context (c := c) ?_
  rw [State.modifyTrack_self]
  exact hst

theorem setContext (h : s.HeldBut (some t)) {st : TrackState} {c : Playback} (hst : st.context = some c)
    (hc : c.Fits s.pages s.tracks[t].group) : (s.setTrackState t st).Held :=
  h.goOn _ rfl (fun _ hp => hp) hst hc

/-- The front page of a queue is made active (R32). -/
theorem makeActive (h : s.Held) (t : TrackId) (start : Stamp) (late : Bool) : (s.makeActive t start late).Held := by
  cases hq : s.tracks[t].queue with
  | nil => rwa [State.makeActive_nil hq]
  | cons p rest =>
    have hfits := (h.tracks t).queued p (by rw [hq]; exact List.mem_cons_self)
    have hpage : (s.modifyPage p fun pg => { pg with state := .active, owner := some t }).HeldBut (some t) :=
      (h.but t).modifyPage p (fun pg => { pg with state := .active, owner := some t })
        (fun (hs : PageState.active = .sealed) => nomatch hs) fun _ _ hp => hp
    rw [State.makeActive_cons hq]
    refine State.HeldBut.queueEventIf (hpage.goOn _ rfl (fun q hqr => ?_) (c := Playback.begin p start) rfl
      ⟨?_, fun _ he => absurd he List.not_mem_nil⟩) _ _
    · exact hq ▸ List.mem_cons_of_mem p hqr
    · show Page.Fits (State.modifyPage s p _).pages[p] s.tracks[t].group
      rw [State.modifyPage_self]
      exact hfits

/-! ### Gates and steps -/

theorem gateFault (h : s.Held) {p : Playback} {group : LineSet} (hp : p.Fits s.pages group) (t : TrackId) (k : TriggerId)
    (report : Bool) (stall : Stamp) : (s.gateFault t p k report stall).Held := by
  have happlied := ((h.but t).queueEventIf report (.gateReleased t k .timeout stall)).applyPending
  have hretired := happlied.retire t (p := p) (group := group)
    (by rwa [State.applyPending_pages, State.queueEventIf_pages]) .faulted
  exact ((hretired.composeAborted (.stopEnd t)).settle_applyRest (st := .faulted) rfl nofun).queueEvent _

theorem reachGate (h : s.Held) {p : Playback} (hst : s.tracks[t].state.context = some p) (index : Nat) (offset : Word32)
    (k : TriggerId) (timeout : Word32) (action : GateAction) (report : Bool) :
    (s.reachGate t p index offset k timeout action report).Held := by
  have hp := (h.tracks t).playing p hst
  unfold State.reachGate
  split
  · exact (h.consume k).queueEventIf _ _
  · split
    · exact h.queueEventIf _ _
    · exact h.gateFault hp t k report 0
  all_goals exact (h.but t).setContext (c := p) rfl hp

/-- A step that touches lines of the group alone takes effect (R4 to R8). -/
theorem takeStep (h : s.Held) {p : Playback} (hst : s.tracks[t].state = .playing p) {st : Step}
    (hlines : within st.lines s.tracks[t].group = true) : (s.takeStep t p st).Held := by
  have hp : p.Fits s.pages s.tracks[t].group := (h.tracks t).playing p (by rw [hst]; rfl)
  have hpassed : (s.setTrackState t (.playing { p with nextStep := p.nextStep + 1 })).Held :=
    (h.but t).setContext (c := { p with nextStep := p.nextStep + 1 }) rfl hp
  have hb := h.but t
  cases st with
  | drive offset lines levels =>
    exact (hb.mapLines hlines _ fun l _ hd => Line.drive_output hd (levels.getLsbD l)).setContext
      (c := { p with nextStep := p.nextStep + 1 }) rfl hp
  | toggle offset lines =>
    exact (hb.mapLines hlines _ fun _ _ hd => Line.toggle_output hd).setContext
      (c := { p with nextStep := p.nextStep + 1 }) rfl hp
  | pulse offset lines level width =>
    refine (hb.mapLines hlines _ fun _ _ hd => Line.drive_output hd level).setContext
      (c := { p with nextStep := _, pulseEnds := _ }) rfl ⟨hp.1, fun e he => ?_⟩
    obtain ⟨before, after, hsplit, hinsert, -⟩ := insertPulse_split (pulseEnd offset lines level width) p.pulseEnds
    rw [hinsert, List.mem_append, List.mem_cons] at he
    rcases he with he | rfl | he
    · exact hp.2 e (by simp [hsplit, he])
    · exact hlines
    · exact hp.2 e (by simp [hsplit, he])
  | mark offset code => exact hpassed.queueEvent _
  | gate offset k timeout action report =>
    exact hpassed.reachGate (by rw [State.setTrackState, State.modifyTrack_self]; rfl) _ _ _ _ _ _

end State.HeldBut

@[simp] theorem State.endPulses_pages (s : State) (ends : List PulseEnd) : (s.endPulses ends).pages = s.pages :=
  foldl_keeps (P := fun u => u.pages = s.pages) (fun u e hu => (u.driveAll_pages e.lines e.level).trans hu) ends s rfl

theorem State.pulsesDue_state (s : State) (t : TrackId) (p : Playback) (pageTime : Nat) :
    (s.pulsesDue t p pageTime).tracks[t].state =
      .playing { p with pulseEnds := p.pulseEnds.filter fun e => e.offset.toNat != pageTime } := by
  rw [State.pulsesDue, State.setTrackState, State.modifyTrack_self]

/-! ### Groups stay while a track plays -/

theorem State.gateFault_group (s : State) (t u : TrackId) (p : Playback) (k : TriggerId) (report : Bool) (stall : Stamp) :
    (s.gateFault t p k report stall).tracks[u].group = s.tracks[u].group := by
  rw [State.gateFault, State.queueEvent_tracks, State.applyRest_tracks, State.settle_get, State.composeAborted_tracks,
    State.retire_tracks]
  split <;> rw [State.applyPending_group, State.queueEventIf_tracks]

theorem State.setTrackState_group (s : State) (t u : TrackId) (st : TrackState) :
    (s.setTrackState t st).tracks[u].group = s.tracks[u].group := by
  rw [State.setTrackState, State.modifyTrack_get]
  split <;> rfl

theorem State.reachGate_group (s : State) (t u : TrackId) (p : Playback) (index : Nat) (offset : Word32) (k : TriggerId)
    (timeout : Word32) (action : GateAction) (report : Bool) :
    (s.reachGate t p index offset k timeout action report).tracks[u].group = s.tracks[u].group := by
  unfold State.reachGate
  split
  · simp
  · split
    · simp
    · exact State.gateFault_group s t u p k report 0
  all_goals exact State.setTrackState_group s t u _

theorem State.takeStep_group (s : State) (t u : TrackId) (p : Playback) (st : Step) :
    (s.takeStep t p st).tracks[u].group = s.tracks[u].group := by
  cases st with
  | gate offset k timeout action report =>
    exact (State.reachGate_group _ t u _ _ _ _ _ _ _).trans (State.setTrackState_group s t u _)
  | mark offset code =>
    rw [State.takeStep, State.queueEvent_tracks]
    exact State.setTrackState_group s t u _
  | _ => exact State.setTrackState_group _ t u _

namespace State.HeldBut

variable {s : State} {t : TrackId}

theorem takeSteps (h : s.Held) (pageTime : Nat) (sts : List Step)
    (hsts : ∀ st ∈ sts, within st.lines s.tracks[t].group = true) : (State.takeSteps t pageTime sts s).Held := by
  induction sts generalizing s with
  | nil => exact h
  | cons st rest ih =>
    unfold State.takeSteps
    split
    · rename_i p hp
      split
      · refine ih (h.takeStep hp (hsts st (by simp))) fun st' hst' => ?_
        rw [State.takeStep_group]
        exact hsts st' (by simp [hst'])
      · exact h
    · exact h

theorem playFrom (h : s.Held) (t : TrackId) (pageTime : Nat) : (s.playFrom t pageTime).Held := by
  unfold State.playFrom
  split
  · rename_i p hp
    have hfits := ((h.tracks t).playing p (by rw [hp]; rfl)).1
    exact h.takeSteps pageTime _ fun st hst => hfits.step (List.mem_of_mem_drop hst)
  · exact h

/-! ### Pulse ends, repetitions and the run end -/

theorem endPulses (h : s.HeldBut (some t)) (ends : List PulseEnd)
    (hends : ∀ e ∈ ends, within e.lines s.tracks[t].group = true) : (s.endPulses ends).HeldBut (some t) := by
  induction ends generalizing s with
  | nil => exact h
  | cons e rest ih =>
    refine ih (s := s.driveAll e.lines e.level) ?_ fun e' he' => hends e' (by simp [he'])
    exact h.mapLines (hends e (by simp)) _ fun _ _ hd => Line.drive_output hd _

theorem pulsesDue (h : s.Held) {p : Playback} (hp : p.Fits s.pages s.tracks[t].group) (pageTime : Nat) :
    (s.pulsesDue t p pageTime).Held := by
  have hended := (h.but t).endPulses (p.pulseEnds.filter fun e => e.offset.toNat == pageTime) fun e he =>
    hp.2 e (List.mem_filter.mp he).1
  refine hended.setContext rfl ?_
  rw [State.endPulses_pages, State.endPulses_tracks]
  exact hp.mono rfl fun e he => (List.mem_filter.mp he).1

/-- The policies of an underrun (R44 to R47). -/
theorem underrun (h : s.Held) {p : Playback} (hp : p.Fits s.pages s.tracks[t].group) : (s.underrun t p).Held := by
  have hretired := (h.but t).retire t hp .complete
  unfold State.underrun
  split
  · exact (hretired.settle_holding none).queueEvent _
  · exact ((hretired.settle_applyRest (st := .idle) rfl nofun).queueEvent _).queueEvent _
  · exact (hretired.settle_applyRest (st := .faulted) rfl nofun).queueEvent _
  · refine State.HeldBut.queueEventIf ((h.but t).goOn _ rfl (fun _ hq => hq) rfl ?_) _ _
    exact hp.mono rfl fun _ he => he

/-- The run end of a track that plays a page (R40 to R49). -/
theorem runEnd (h : s.Held) {c : Playback} (hst : s.tracks[t].state.context = some c) {p : Playback}
    (hp : p.Fits s.pages s.tracks[t].group) : (s.runEnd t p).Held := by
  have happlied : (s.applyPending t).Held :=
    (h.but t).applyPending.held_of_context (c := c) (by rw [State.applyPending_state]; exact hst)
  have hfits : p.Fits (s.applyPending t).pages (s.applyPending t).tracks[t].group := by
    rw [State.applyPending_pages, State.applyPending_group]
    exact hp
  have hretired := (happlied.but t).retire t hfits .complete
  unfold State.runEnd
  dsimp only
  split
  · exact ((hretired.settle_applyRest (st := .idle) rfl nofun).compose _ _ _).queueEvent _
  split
  · exact (hretired.settle_holding none).queueEvent _
  split
  · exact (happlied.retire t hfits .complete).makeActive t _ _
  · exact happlied.underrun hfits

theorem boundary (h : s.Held) {c : Playback} (hst : s.tracks[t].state.context = some c) {p : Playback}
    (hp : p.Fits s.pages s.tracks[t].group) : (s.boundary t p).Held := by
  unfold State.boundary
  dsimp only
  split
  · refine (h.but t).setContext rfl ?_
    exact hp.mono rfl fun _ he => he
  · exact h.runEnd hst (hp.mono rfl fun _ he => he)

theorem trackActions (h : s.Held) (t : TrackId) : (s.trackActions t).Held := by
  unfold State.trackActions
  split
  · rename_i p hst
    have hp := (h.tracks t).playing p (by rw [hst]; rfl)
    have hdue := h.pulsesDue hp (s.nextPoint p)
    dsimp only
    split
    · have hcontext := congrArg TrackState.context (s.pulsesDue_state t p (s.nextPoint p))
      exact (hdue.boundary hcontext ((hdue.tracks t).playing _ hcontext)).playFrom t 0
    · exact hdue.playFrom t _
  · exact h

/-! ### Gates left and starts taken -/

theorem resumePage (h : s.Held) {p : Playback} (hp : p.Fits s.pages s.tracks[t].group) (g : GateWait) (o : GateOutcome) :
    (s.resumePage t p g o).Held := by
  refine State.HeldBut.playFrom (State.HeldBut.queueEventIf ((h.but t).setContext rfl ?_) _ _) t _
  exact hp.mono rfl fun _ he => he

theorem endGate (h : s.Held) (t : TrackId) : (s.endGate t).Held := by
  unfold State.endGate
  split
  · rename_i p g hst
    have hp := (h.tracks t).playing p (by rw [hst]; rfl)
    split
    · exact h.resumePage hp g .timeout
    · exact h.gateFault hp t _ _ _
  · exact h

theorem resumeReleased (h : s.Held) (t : TrackId) : (s.resumeReleased t).Held := by
  unfold State.resumeReleased
  split
  · rename_i p g hst
    exact h.resumePage ((h.tracks t).playing p (by rw [hst]; rfl)) g .fired
  · exact h

theorem startEffect (h : s.Held) (t : TrackId) : (s.startEffect t).Held := by
  unfold State.startEffect
  split
  · exact State.HeldBut.playFrom ((h.makeActive t _ _).compose _ _ _) t 0
  · exact h

theorem releaseEffect (h : s.Held) (t : TrackId) : (s.releaseEffect t).Held := by
  unfold State.releaseEffect
  split
  · exact (h.makeActive t _ false).playFrom t 0
  · exact h

end State.HeldBut
end Sys2Proof.Machine
end

section
/-! Firings, samples, sessions and requests keep the law of groups and levels (R28, R29, R121). -/
namespace Sys2Proof.Machine

theorem Track.atRest_of_waitsOn_start {tr : Track} {k : TriggerId} (h : tr.waitsOn k = some .start) :
    tr.state.atRest = true := by
  obtain ⟨offset, reply, hst⟩ := (Track.waitsOn_start_iff tr k).mp h
  rw [hst]; rfl

theorem Track.atRest_of_onEpoch {tr : Track} (h : tr.onEpoch = true) : tr.state.atRest = true := by
  unfold Track.onEpoch at h
  split at h
  · rename_i hst
    rw [hst]; rfl
  · cases h

/-- A release changes neither what a track plays nor whether it is at rest. -/
theorem TrackState.released_like (st : TrackState) (f c : Stamp) :
    (st.released f c).context = st.context ∧ (st.released f c).atRest = st.atRest ∧
      ((st.released f c) = .disabled → st = .disabled) := by
  unfold TrackState.released
  split
  · exact ⟨rfl, rfl, nofun⟩
  · exact ⟨rfl, rfl, nofun⟩
  · exact ⟨rfl, rfl, id⟩

/-- A reference pulse changes neither what a track plays nor whether it is at rest. -/
theorem TrackState.onPulse_like (st : TrackState) (epoch : Word32) (p : Stamp) :
    (st.onPulse epoch p).context = st.context ∧ (st.onPulse epoch p).atRest = st.atRest ∧
      ((st.onPulse epoch p) = .disabled → st = .disabled) := by
  unfold TrackState.onPulse
  split
  · split
    · exact ⟨rfl, rfl, nofun⟩
    · exact ⟨rfl, rfl, id⟩
  · exact ⟨rfl, rfl, id⟩

theorem TrackState.enabled_context {st : TrackState} (h : st.context = none) : st.enabled.context = none := by
  unfold TrackState.enabled
  split
  · rfl
  · exact h

theorem TrackState.enabled_ne_disabled (st : TrackState) : st.enabled ≠ .disabled := by
  unfold TrackState.enabled
  split
  · exact nofun
  · assumption

/-- A line after a sample of its pin (R123). -/
def Line.sampled (ln : Line) (level : Bool) (now : Stamp) : Line := { ln with role := ln.role.sampled level now }

/-- A sample leaves an output as it is. -/
theorem Line.sampled_output (ln : Line) {driven : Bool} (h : ln.role = .output driven) (level : Bool) (now : Stamp) :
    ln.sampled level now = ln := by
  rw [Line.sampled, h, LineRole.sampled, ← h]

/-- A line with another rest level stays an output when it goes to it. -/
theorem Line.rested_output {ln : Line} (h : ∃ d, ln.role = .output d) (rest : Bool) :
    ∃ d, ({ ln with rest := rest } : Line).toRest.role = .output d :=
  Line.drive_output (ln := { ln with rest := rest }) h rest

namespace State.HeldBut

variable {s : State} {x : Option TrackId} {t : TrackId}

/-! ### A track or a line changed -/

/-- A track changes within its group and to no new page, playback or rest. -/
theorem adjust (h : s.HeldBut x) (t : TrackId) (f : Track → Track) (hgroup : (f s.tracks[t]).group = s.tracks[t].group)
    (hqueue : ∀ p ∈ (f s.tracks[t]).queue, p ∈ s.tracks[t].queue)
    (hcontext : (f s.tracks[t]).state.context = s.tracks[t].state.context)
    (hrest : (f s.tracks[t]).state.atRest = true → s.tracks[t].state.atRest = true)
    (hdisabled : (f s.tracks[t]).state = .disabled → s.tracks[t].state = .disabled) : (s.modifyTrack t f).HeldBut x := by
  have hget (u : TrackId) : (s.modifyTrack t f).tracks[u] = if u = t then f s.tracks[t] else s.tracks[u] := by
    rw [State.modifyTrack_get]
    split
    · rename_i hu; rw [hu]
    · rfl
  refine h.retrack rfl rfl (fun u => ?_) (fun u => ?_) (fun u => ?_) (fun u => ?_) fun u => ?_
  all_goals
    rw [hget]
    split
  · rename_i hu; rw [hu, hgroup]
  · rfl
  · rename_i hu; rw [hu]; exact hqueue
  · exact fun _ hp => hp
  · rename_i hu; rw [hu, hcontext]
  · rfl
  · rename_i hu; rw [hu]; exact hrest
  · exact id
  · rename_i hu; rw [hu]; exact hdisabled
  · exact id

/-- A line changes: one of a group not at all, one of none to a line at rest. -/
theorem modifyLine (h : s.HeldBut x) (l : LineId) (f : Line → Line)
    (hgroup : ∀ t : TrackId, s.tracks[t].group.getLsbD l = true → f s.lines[l] = s.lines[l])
    (hstatic : (∀ t : TrackId, s.tracks[t].group.getLsbD l = false) → (f s.lines[l]).restful) : (s.modifyLine l f).HeldBut x := by
  have hget (m : LineId) : (s.modifyLine l f).lines[m] = if m = l then f s.lines[l] else s.lines[m] := by
    by_cases hm : m = l
    · rw [hm, if_pos rfl, s.modifyLine_self]
    · rw [if_neg hm, s.modifyLine_other l m f (Ne.symm hm)]
  refine h.relines rfl rfl (fun t m hm => ?_) fun m hm => ?_
  all_goals
    rw [hget]
    split
  · rename_i heq; subst heq; exact hgroup t hm
  · rfl
  · rename_i heq; subst heq; exact hstatic hm
  · exact h.static m hm

/-- An input line takes another role that is no output's. -/
theorem inputLine (h : s.HeldBut x) (l : LineId) (f : Line → Line) (hrole : ∀ d, s.lines[l].role ≠ .output d)
    (hf : ∀ d, (f s.lines[l]).role ≠ .output d) : (s.modifyLine l f).HeldBut x := by
  refine h.modifyLine l f (fun t ht => ?_) fun _ d hd => absurd hd (hf d)
  obtain ⟨d, hd⟩ := (h.tracks t).outputs l ht
  exact absurd hd (hrole d)

/-! ### Starts cancelled and queues flushed -/

/-- A track at rest comes to IDLE, its lines as they stand. -/
theorem cancelStart (h : s.Held) (hrest : s.tracks[t].state.atRest = true) (r : CancelReason) : (s.cancelStart t r).Held := by
  have hidle : (s.settle t .idle).Held := ((h.but t).settle (st := .idle) rfl nofun).held fun _ l hl => by
    rw [State.settle_get, if_pos rfl] at hl
    exact h.quiet t nofun hrest l hl
  exact (hidle.composeAborted _).queueEvent _

theorem cancelStarts (h : s.Held) (ts : List TrackId) (hrest : ∀ t ∈ ts, s.tracks[t].state.atRest = true) (r : CancelReason) :
    (ts.foldl (fun s t => s.cancelStart t r) s).Held := by
  induction ts generalizing s with
  | nil => exact h
  | cons t ts ih =>
    refine ih (h.cancelStart (hrest t (by simp)) r) fun u hu => ?_
    rw [State.cancelStart_tracks, State.settle_get]
    split
    · rfl
    · exact hrest u (by simp [hu])

/-- A flush takes pages off a track and leaves the law as it stands (R23, R78). -/
theorem flush (h : s.HeldBut x) (t : TrackId) : (s.flush t).HeldBut x := by
  have hleft : (s.leavePages s.tracks[t].queue).HeldBut x := by
    refine h.repage (by simp) (by simp) (fun p hp => ?_) fun u p _ hp => ?_ <;> rw [State.leavePages_get] at *
    · split
      · rename_i hq
        exact ((h.tracks t).queued p hq).leave.1
      · rename_i hq
        rw [if_neg hq] at hp
        exact h.sealedExact p hp
    · split
      · exact hp.leave
      · exact hp
  exact hleft.adjust t _ rfl nofun rfl id id

theorem flush_afterFlush (h : s.Held) (t : TrackId) : ((s.flush t).afterFlush t).Held := by
  have hf := h.flush t
  unfold State.afterFlush
  split
  · rename_i hst
    exact hf.cancelStart (by rw [hst]; rfl) _
  · rename_i hst
    refine State.HeldBut.queueEvent (hf.adjust t (fun tr => { tr with state := .holding none }) rfl (fun _ hp => hp) ?_
      (fun hr => by cases hr) fun hd => by cases hd) _
    rw [hst]; rfl
  all_goals exact hf

/-! ### Firings, reference pulses and gates of a disarmed trigger -/

theorem releaseTrack (h : s.HeldBut x) (t : TrackId) (f c : Stamp) : (s.releaseTrack f c t).HeldBut x := by
  obtain ⟨hcontext, hrest, hdisabled⟩ := s.tracks[t].state.released_like f c
  exact h.adjust t (fun tr => { tr with state := s.tracks[t].state.released f c }) rfl (fun _ hp => hp) hcontext
    (fun hr => hrest ▸ hr) hdisabled

theorem fire (h : s.Held) (k : TriggerId) (g : TriggerConfig) (f c : Stamp) : (s.fire k g f c).Held := by
  have hfired := (h.congr (s' := s.setLatch k (.fired f c false)) rfl rfl rfl).queueEventIf g.report
    (.triggerFired k g.line f (s.consumers k).length)
  unfold State.fire
  dsimp only
  split
  · exact hfired
  · exact (foldl_keeps (P := State.Held) (fun s t h => h.releaseTrack t f c) _ _ hfired).consume k

theorem edgeAtTrigger (h : s.Held) (rising : Bool) (f c : Stamp) (k : TriggerId) : (s.edgeAtTrigger rising f c k).Held := by
  unfold State.edgeAtTrigger
  split
  · exact h
  split
  · exact h
  · split
    · exact h.fire k _ f c
    · exact h
  · split
    · exact (h.congr (s' := s.setLatch k _) rfl rfl rfl).queueEvent _
    · exact h
  · split
    · exact h
    · exact h.congr rfl rfl rfl

theorem dismiss (h : s.Held) (k : TriggerId) (t : TrackId) : (s.dismiss k t).Held := by
  unfold State.dismiss
  split
  · rename_i hw
    exact h.cancelStart (Track.atRest_of_waitsOn_start hw) _
  · exact h.endGate t
  · exact h

theorem disarm (h : s.Held) (k : TriggerId) : (s.disarm k).Held :=
  foldl_keeps (P := State.Held) (fun _ t h => h.dismiss k t) _ _ (h.congr (s' := s.setLatch k .disarmed) rfl rfl rfl)

theorem lossOfLock (h : s.Held) : s.lossOfLock.Held := by
  unfold State.lossOfLock
  dsimp only
  apply State.HeldBut.cancelStarts
  · apply State.HeldBut.queueEvent
    exact h.congr rfl rfl rfl
  · intro t ht
    rw [State.queueEvent_tracks]
    exact Track.atRest_of_onEpoch (List.mem_filter.mp ht).2

theorem checkPulse (h : s.Held) : s.checkPulse.Held := by
  unfold State.checkPulse
  dsimp only
  split
  · exact h.congr rfl rfl rfl
  split
  · split
    · apply State.HeldBut.queueEvent
      exact h.congr rfl rfl rfl
    · exact h.congr rfl rfl rfl
  · split
    · exact State.HeldBut.lossOfLock (h.congr rfl rfl rfl)
    · exact h.congr rfl rfl rfl

theorem releaseEpoch (h : s.Held) : s.releaseEpoch.Held := by
  have htrack (t : TrackId) : s.releaseEpoch.tracks[t] =
      { s.tracks[t] with state := s.tracks[t].state.onPulse s.reference.epoch s.timeline } := by
    simp [State.releaseEpoch]
  have hlike (t : TrackId) := s.tracks[t].state.onPulse_like s.reference.epoch s.timeline
  refine h.retrack rfl rfl (fun t => ?_) (fun t p hp => ?_) (fun t => ?_) (fun t hr => ?_) fun t hd => ?_
  · rw [htrack]
  · rw [htrack] at hp; exact hp
  · rw [htrack]; exact (hlike t).1
  · rw [htrack] at hr; exact (hlike t).2.1 ▸ hr
  · rw [htrack] at hd; exact (hlike t).2.2 hd

theorem pulse (h : s.Held) : s.pulse.Held := by
  unfold State.pulse
  apply State.HeldBut.releaseEpoch
  split
  · exact h.congr rfl rfl rfl
  · exact State.HeldBut.checkPulse (h.congr rfl rfl rfl)

theorem missPulse (h : s.Held) : s.missPulse.Held := by
  unfold State.missPulse
  dsimp only
  split
  · exact State.HeldBut.lossOfLock (h.congr rfl rfl rfl)
  · exact h.congr rfl rfl rfl

/-! ### Samples -/

theorem acceptEdge (h : s.Held) (l : LineId) : (s.acceptEdge l).Held := by
  unfold State.acceptEdge
  split
  · rename_i filter capture sensed f hrole
    refine foldl_keeps (P := State.Held) (fun s r h => ?_) _ _ ?_
    · cases r with
      | journal => exact h.congr (by simp [State.deliver]) (by simp [State.deliver]) (by simp [State.deliver])
      | trigger k => exact h.edgeAtTrigger _ _ _ k
    · exact (h.inputLine l (fun ln => { ln with role := .input filter capture (!sensed) none })
        (fun d hd => by rw [hrole] at hd; cases hd) fun d hd => by cases hd).congr rfl rfl rfl
  · exact h

theorem acceptUnfiltered (h : s.Held) (l : LineId) : (s.acceptUnfiltered l).Held := by
  unfold State.acceptUnfiltered
  split
  · exact State.endSample_keeps (fun _ h => h.congr rfl rfl rfl) (fun _ l h => h.acceptEdge l) h
  · exact h

/-- A level shown on a pin reaches inputs alone (R123). -/
theorem showLevel (h : s.Held) (l : LineId) (level : Bool) : (s.showLevel l level).Held := by
  have hshown : (s.modifyLine l fun ln => ln.sampled level s.timeline).Held := by
    cases hrole : s.lines[l].role with
    | output driven =>
      have hsame := s.lines[l].sampled_output hrole level s.timeline
      exact h.modifyLine l _ (fun _ _ => hsame) fun hl => by rw [hsame]; exact h.static l hl
    | _ =>
      refine h.inputLine l _ (by rw [hrole]; exact fun _ => nofun) fun d hd => ?_
      rw [Line.sampled, hrole] at hd
      cases hd
  exact hshown.congr rfl rfl rfl

/-! ### Session ends -/

theorem endSession (h : s.Held) : s.endSession.Held := by
  have hpage (p : PageId) (group : LineSet) : s.endSession.pages[p].Fits group := by
    rw [State.endSession_page]; exact Page.cleared_fits group
  have hended (t : TrackId) : s.endSession.tracks[t].group = s.tracks[t].group ∧
      s.endSession.tracks[t].state.context = none ∧
      (s.endSession.tracks[t].state = .disabled → s.tracks[t].state = .disabled) := by
    rw [State.endSession_track]
    by_cases hd : s.tracks[t].state = .disabled
    · rw [Track.ended_of_disabled hd, hd]; exact ⟨rfl, rfl, id⟩
    · rw [Track.ended_spec hd]; exact ⟨rfl, rfl, nofun⟩
  have houtput (l : LineId) (ho : ∃ d, s.lines[l].role = .output d) : ∃ d, s.endSession.lines[l].role = .output d := by
    rw [State.endSession_line]
    refine foldl_keeps (P := fun ln => ∃ d, Line.role ln = .output d) (fun ln _ hln => ?_) _ _ ho
    unfold Track.endLine
    split
    · exact Line.rested_output hln _
    · exact hln
  refine ⟨fun t u => ?_, fun p _ => (hpage p 0).1, fun t => ⟨fun l hl => ?_, fun hd => ?_, fun p _ => hpage p _, fun c hc => ?_⟩,
    fun l hl => ?_, fun t _ hrest l hl => ?_⟩
  · rw [(hended t).1, (hended u).1]; exact h.disjoint t u
  · rw [(hended t).1] at hl; exact houtput l ((h.tracks t).outputs l hl)
  · rw [(hended t).1]; exact (h.tracks t).disabled ((hended t).2.2 hd)
  · rw [(hended t).2.1] at hc; cases hc
  · rw [State.endSession_line]
    exact Track.endLines_restful (fun v => s.tracks[v]) l _ _ (.inl (h.static l fun t => by rw [← (hended t).1]; exact hl t))
  · rw [(hended t).1] at hl
    have hd : s.tracks[t].state ≠ .disabled := fun hd => by
      rw [(h.tracks t).disabled hd] at hl
      simp at hl
    rw [State.endSession_line]
    exact Track.endLines_restful (fun v => s.tracks[v]) l _ _ (.inr ⟨t, List.mem_finRange t, hd, hl⟩)

theorem answerDeferred (h : s.Held) : s.answerDeferred.Held :=
  State.HeldBut.congr
    (foldl_keeps (P := State.Held) (fun _ o h => h.composeAborted o) _ _
      (h.congr (s' := { s with choices := s.choices + 1 }) rfl rfl rfl)) rfl rfl rfl

theorem loseLink (h : s.Held) : s.loseLink.Held :=
  h.endSession.congr (by simp only [State.loseLink, State.discardDeferred]) (by simp only [State.loseLink, State.discardDeferred])
    (by simp only [State.loseLink, State.discardDeferred])

/-! ### Configure Track -/

theorem disableTrack (h : s.Held) (hfix : s.tracks[t].state.fixesGroup = false) (hq : s.tracks[t].queue = []) :
    (s.disableTrack t).Held := by
  have hline (l : LineId) : (s.disableTrack t).lines[l] =
      if s.tracks[t].group.getLsbD l then s.lines[l].toRest else s.lines[l] := State.applyRest_line s t l
  have hget (u : TrackId) : (s.disableTrack t).tracks[u] =
      if u = t then { s.tracks[u] with state := .disabled, group := 0 } else s.tracks[u] := State.modifyTrack_get _ t u _
  have hother (u : TrackId) (hu : u ≠ t) (l : LineId) (hl : s.tracks[u].group.getLsbD l = true) :
      (s.disableTrack t).lines[l] = s.lines[l] := by
    rw [hline, if_neg]
    rw [not_getLsbD_of_disjoint (h.disjoint u t hu) hl]; decide
  have hrest := (h.but t).applyRest
  refine ⟨fun u v huv => ?_, h.sealedExact, fun u => ?_, fun l hl => ?_, fun u _ hr l hl => ?_⟩
  · rw [hget, hget]
    split
    · exact BitVec.zero_and
    · split
      · exact BitVec.and_zero
      · exact h.disjoint u v huv
  · rw [hget]
    split
    · rename_i hu
      subst hu
      exact ⟨fun l hl => by simp at hl, fun _ => rfl, fun p hp => absurd hp (by rw [hq]; exact List.not_mem_nil),
        fun c hc => by cases hc⟩
    · exact hrest.tracks u
  · rw [hline]
    split
    · exact Line.toRest_restful _
    · rename_i hg
      refine h.static l fun u => ?_
      have hu := hl u
      rw [hget] at hu
      split at hu
      · rename_i hut; rw [hut]; simpa using hg
      · exact hu
  · rw [hget] at hr hl
    split at hr
    · cases hr
    · rename_i hu
      rw [if_neg hu] at hl
      exact hrest.quiet u nofun hr l hl

/-- A group that is free for a track is formed (R51 to R53). -/
theorem form (h : s.Held) {u : State} {group rest : LineSet} {tr : Track} (hu : s.Formed u t group rest tr)
    (hfree : s.GroupFree t group) (hgroup : tr.group = group) (hqueue : tr.queue = s.tracks[t].queue)
    (hst : tr.state.context = none) (hd : tr.state ≠ .disabled) : u.Held := by
  obtain ⟨houtputs, hothers, hfits⟩ := hfree
  have hpages : u.pages = s.pages := by rw [hu.frame]
  have hself : u.tracks[t] = tr := hu.track
  have hother (v : TrackId) (hv : v ≠ t) : u.tracks[v] = s.tracks[v] := by
    rw [hu.frame]
    exact State.modifyTrack_other s t v (fun _ => tr) hv.symm
  have houtput (l : LineId) (ho : ∃ d, s.lines[l].role = .output d) : ∃ d, u.lines[l].role = .output d := by
    rw [hu.line]
    split
    · exact Line.rested_output ho _
    · split
      · exact Line.drive_output ho _
      · exact ho
  have hmember (l : LineId) (hl : group.getLsbD l = true) : u.lines[l].restful := by
    rw [hu.line, if_pos hl]
    exact Line.toRest_restful _
  have hline (v : TrackId) (hv : v ≠ t) (l : LineId) (hl : s.tracks[v].group.getLsbD l = true) : u.lines[l] = s.lines[l] := by
    rw [hu.line, not_getLsbD_of_disjoint (hothers v hv) hl, not_getLsbD_of_disjoint (h.disjoint v t hv) hl]
    simp
  refine ⟨fun v w hvw => ?_, by rw [hpages]; exact h.sealedExact, fun v => ?_, fun l hl => ?_, fun v _ hr l hl => ?_⟩
  · rcases eq_or_ne v t with rfl | hv
    · rw [hself, hother w hvw.symm, hgroup, BitVec.and_comm]
      exact hothers w hvw.symm
    · rcases eq_or_ne w t with rfl | hw
      · rw [hself, hother v hv, hgroup]
        exact hothers v hv
      · rw [hother v hv, hother w hw]
        exact h.disjoint v w hvw
  · rw [hpages]
    rcases eq_or_ne v t with rfl | hv
    · rw [hself]
      refine ⟨fun l hl => houtput l (houtputs l (hgroup ▸ hl)), fun hs => absurd hs hd, fun p hp => ?_, fun c hc => ?_⟩
      · rw [hqueue] at hp
        rw [hgroup]
        exact ⟨((h.tracks v).queued p hp).1, (within_iff _ _).mpr (hfits p hp)⟩
      · rw [hst] at hc; cases hc
    · rw [hother v hv]
      exact { h.tracks v with outputs := fun l hl => houtput l ((h.tracks v).outputs l hl) }
  · have hnone (v : TrackId) (hv : v ≠ t) : s.tracks[v].group.getLsbD l = false := by rw [← hother v hv]; exact hl v
    have hnew := hl t
    rw [hself, hgroup] at hnew
    rw [hu.line, hnew, if_neg Bool.false_ne_true]
    split
    · exact Line.toRest_restful _
    · rename_i hold
      refine h.static l fun v => (eq_or_ne v t).elim (fun hv => ?_) (hnone v)
      rw [hv, ← Bool.not_eq_true]
      refine fun hg => hold ⟨fun hdis => ?_, hg⟩
      rw [(h.tracks t).disabled hdis] at hg
      simp at hg
  · rcases eq_or_ne v t with rfl | hv
    · rw [hself, hgroup] at hl
      exact hmember l hl
    · rw [hother v hv] at hr hl
      rw [hline v hv l hl]
      exact h.quiet v nofun hr l hl

theorem enableTrack (h : s.Held) {group rest : LineSet} (hfree : s.GroupFree t group)
    (hkeep : s.tracks[t].state.fixesGroup = true → group = s.tracks[t].group) (policy : Policy) (started retired : Bool) :
    (s.enableTrack t group rest policy started retired).Held := by
  by_cases hc : s.tracks[t].state.context = none
  · by_cases hh : ∃ r, s.tracks[t].state = .holding r
    · obtain ⟨r, hr⟩ := hh
      have hsame : group = s.tracks[t].group := hkeep (by rw [hr]; rfl)
      rw [State.enableTrack_holding s t group rest policy started retired hr]
      have hconfigured := h.adjust t (fun tr => tr.configured group policy started retired) hsame (fun _ hp => hp) rfl id id
      have hget : (s.modifyTrack t fun tr => tr.configured group policy started retired).tracks[t].group = group := by
        rw [State.modifyTrack_self]; rfl
      refine State.HeldBut.held ((hconfigured.but t).mapLines (by rw [hget]; exact within_refl _) _ fun _ _ hd => hd)
        fun hrest => ?_
      rw [State.storeRest_tracks, State.modifyTrack_self, Track.configured, hr] at hrest
      cases hrest
    · have hformed := State.enableTrack_formed s t group rest policy started retired hc (fun r hr => hh ⟨r, hr⟩)
        fun a ha => hkeep (by rw [ha]; rfl)
      exact h.form hformed hfree rfl rfl (TrackState.enabled_context hc) (TrackState.enabled_ne_disabled _)
  · rw [State.enableTrack_playing s t group rest policy started retired hc]
    exact h.adjust t _ rfl (fun _ hp => hp) rfl id id

end State.HeldBut
end Sys2Proof.Machine
end

section
/-! Every step keeps the law of groups and levels (R28, R29, R121). -/
namespace Sys2Proof.Machine

/-- A page that is neither QUEUED nor ACTIVE stands on no track (R10). -/
theorem State.Placed.offTrack {s : State} (hp : s.Placed) {p : PageId} (hq : s.pages[p].state ≠ .queued)
    (ha : s.pages[p].state ≠ .active) (t : TrackId) : ¬(p ∈ s.tracks[t].queue ∨ s.tracks[t].activePage = some p) := by
  rintro (h | h)
  · exact hq (hp.queueOwned t p h).1
  · exact ha (hp.activeOwned t p h).1

namespace State.HeldBut

variable {s : State} (h : s.Held)
include h

/-! ### The page pool's answers -/

theorem openPage (period : Word32) (repeats : Word16) (flags reserved : Byte) :
    (answerOpenPage period repeats flags reserved s).1.Held := by
  unfold answerOpenPage
  split
  · exact h
  split
  · exact h
  · dsimp only
    exact h.modifyPage _ _ (fun (hs : PageState.opened = .sealed) => nomatch hs) fun _ _ _ =>
      ⟨rfl, (within_iff _ _).mpr BitVec.zero_and⟩

theorem appendSteps (hplaced : s.Placed) (page reserved : Byte) (records : List StepRecord) :
    (answerAppendSteps page reserved records s).1.Held := by
  unfold answerAppendSteps
  split
  · exact h
  split
  · exact h
  rename_i p _
  split
  iterate 4 · exact h
  rename_i hopen
  split
  · exact h
  split
  · exact h
  split
  · exact h
  · dsimp only
    refine h.modifyPage p _ (fun hs => ?_) fun t ht => absurd ht ?_
    · rw [show s.pages[p].state = .sealed from hs] at hopen; cases hopen
    · exact hplaced.offTrack (by rw [hopen]; exact nofun) (by rw [hopen]; exact nofun) t

theorem sealPage (hplaced : s.Placed) (page : Byte) : (answerSealPage page s).1.Held := by
  unfold answerSealPage
  split
  · exact h
  rename_i p _
  dsimp only
  split
  iterate 4 · exact h
  rename_i hopen
  dsimp only
  refine h.modifyPage p _ (fun _ => rfl) fun t ht => absurd ht ?_
  exact hplaced.offTrack (by rw [hopen]; exact nofun) (by rw [hopen]; exact nofun) t

theorem discardPage (page : Byte) : (answerDiscardPage page s).1.Held := by
  have hcleared (p : PageId) : (s.modifyPage p fun _ => Page.cleared).Held :=
    h.modifyPage p _ (fun _ => rfl) fun t _ _ => Page.cleared_fits s.tracks[t].group
  unfold answerDiscardPage
  split
  · exact h
  split
  iterate 3 · exact h
  all_goals exact hcleared _

/-! ### The track units' answers -/

theorem configureTrack (track enable policy options : Byte) (group rest : LineSet) :
    (answerConfigureTrack track enable policy options group rest s).1.Held := by
  unfold answerConfigureTrack
  split
  · exact h
  rename_i t _
  dsimp only
  split
  · split
    · exact h
    · rename_i hfree
      simp only [Bool.or_eq_true, not_or, Bool.not_eq_true, Bool.not_eq_false', List.isEmpty_iff] at hfree
      exact h.disableTrack hfree.1 hfree.2
  split
  · exact h
  split
  · exact h
  split
  · exact h
  rename_i hkeep
  split
  · exact h
  rename_i hfree
  rw [Bool.not_eq_true', Bool.not_eq_false, State.groupFree_iff] at hfree
  exact h.enableTrack hfree (fun hfix => by_contra fun hne => hkeep ⟨hfix, hne⟩) _ _ _

/-- A SEALED page that fits the group joins a queue (R57). -/
theorem queuePage (page track : Byte) : (answerQueuePage page track s).1.Held := by
  unfold answerQueuePage
  split
  · exact h
  · exact h
  rename_i p t _ _
  split
  · exact h
  split
  iterate 4 · exact h
  rename_i hsealed
  split
  · exact h
  split
  · exact h
  rename_i hwithin
  rw [Bool.not_eq_true', Bool.not_eq_false] at hwithin
  have hpage : (s.modifyPage p fun pg => { pg with state := .queued, owner := some t }).Held :=
    h.modifyPage p _ (fun (hs : PageState.queued = .sealed) => nomatch hs) fun _ _ hp => hp
  have hjoins : s.pages[p].Fits s.tracks[t].group := ⟨h.sealedExact p hsealed, hwithin⟩
  have htrack := hpage.tracks t
  dsimp only
  refine State.HeldBut.held (t := t) ((hpage.but t).modifyTrack _ rfl { htrack with queued := fun q hq => ?_ }) fun hr l hl => ?_
  · rcases List.mem_append.mp hq with hq | hq
    · exact htrack.queued q hq
    · rw [List.mem_singleton.mp hq, State.modifyPage_self]
      exact hjoins
  · rw [State.modifyTrack_self] at hr hl
    exact hpage.quiet t nofun hr l hl

theorem flushQueue (track : Byte) : (answerFlushQueue track s).1.Held := by
  unfold answerFlushQueue
  split
  · exact h
  · rename_i t _
    exact h.flush_afterFlush t

/-- A start arms an IDLE track (R62). -/
theorem startTrack (track options : Byte) (form : Except Status StartForm) {effect : State → State}
    (he : (effect s).Held) (ht : (effect s).tracks = s.tracks) : (startTrack track options form effect s).1.Held := by
  unfold Machine.startTrack
  split
  · exact h
  rename_i t _
  split
  · rename_i hidle
    split
    · exact h
    split
    · exact h
    split
    · exact h
    · rename_i a _
      refine he.adjust t (fun tr => { tr with state := .armed ⟨a, flag options 0⟩ }) rfl (fun _ hp => hp) ?_ ?_ ?_ <;> rw [ht, hidle]
      · rfl
      · exact fun _ => rfl
      · exact fun hd => by cases hd
  all_goals exact h

theorem takeFiring (k : TriggerId) : (State.takeFiring k s).Held := by
  unfold State.takeFiring
  split
  · exact h.consume k
  all_goals exact h

theorem starts (track options trigger : Byte) (time : Stamp) (offset : Word32) :
    (answerStartAt track options trigger time offset s).1.Held ∧ (answerStartAfter track options trigger time offset s).1.Held ∧
      (answerStartOnTrigger track options trigger time offset s).1.Held ∧
      (answerStartAtEpoch track options trigger time offset s).1.Held := by
  have plain (form : Except Status StartForm) : (Machine.startTrack track options form id s).1.Held :=
    h.startTrack track options form h rfl
  refine ⟨?_, ?_, ?_, ?_⟩
  · unfold answerStartAt
    split
    · exact h
    · exact plain _
  · unfold answerStartAfter
    split
    · exact h
    · exact plain _
  · unfold answerStartOnTrigger
    split
    · exact h
    split
    · exact h
    · refine h.startTrack track options _ (h.takeFiring _) ?_
      unfold State.takeFiring
      split <;> simp
  · unfold answerStartAtEpoch
    split
    · exact h
    · exact plain _

/-- Stop Track ABORT: a pending configuration is applied, the active page retired, the lines go to rest (R71). -/
theorem abortTrack (t : TrackId) : (s.abortTrack t).Held := by
  have happlied := (h.but t).applyPending
  have hretired {p : Playback} (hst : (s.applyPending t).tracks[t].state.context = some p) :=
    happlied.retire t ((happlied.tracks t).playing p hst) .aborted
  refine State.HeldBut.settle_applyRest (st := .idle) ?_ rfl nofun
  unfold State.abortPage
  split
  · rename_i p hst
    exact hretired (by rw [hst]; rfl)
  · rename_i p g hst
    exact hretired (by rw [hst]; rfl)
  · exact happlied

theorem stopAbort (track : Byte) : (answerStopAbort track s).1.Held := by
  unfold answerStopAbort
  split
  · exact h
  rename_i t _
  split
  iterate 2 · exact h
  all_goals exact (((h.abortTrack t).composeAborted _).composeAborted _).queueEvent _

theorem stopEnd (track : Byte) : (answerStopEnd track s).1.Held := by
  unfold answerStopEnd
  split
  · exact h
  rename_i t _
  have atOnce : (s.stopAtOnce t).Held := ((h.but t).settle_applyRest (st := .idle) rfl nofun).queueEvent _
  split
  iterate 2
    · split
      · exact h
      split
      · exact h
      · dsimp only
        exact h.adjust t _ rfl (fun _ hp => hp) rfl id id
  · rename_i hst
    exact h.cancelStart (by rw [hst]; rfl) _
  iterate 2 · exact atOnce
  iterate 2 · exact h

theorem holdTrack (track : Byte) : (answerHoldTrack track s).1.Held := by
  unfold answerHoldTrack
  split
  · exact h
  dsimp only
  split
  iterate 3
    · split
      · exact h
      · dsimp only
        exact h.adjust _ _ rfl (fun _ hp => hp) rfl id id
  all_goals exact h

theorem releaseTrackAnswer (track : Byte) : (answerReleaseTrack track s).1.Held := by
  unfold answerReleaseTrack
  split
  · exact h
  rename_i t _
  dsimp only
  split
  · rename_i hst
    split
    · exact h
    split
    · exact h
    · refine h.adjust t (fun tr => { tr with state := .holding (some (s.timeline + tickCount Config.lead)) }) rfl
        (fun _ hp => hp) ?_ (fun hr => by cases hr) fun hd => by cases hd
      rw [hst]; rfl
  iterate 3
    · split
      · dsimp only
        exact h.adjust _ _ rfl (fun _ hp => hp) rfl id id
      · exact h
  all_goals exact h

/-! ### The other units' answers -/

theorem armTrigger (trigger line sense count flags : Byte) : (answerArmTrigger trigger line sense count flags s).1.Held := by
  have harm (k : TriggerId) (c : TriggerConfig) : (s.arm k c).Held := by
    unfold State.arm
    split
    · apply State.HeldBut.queueEventIf
      exact h.congr rfl rfl rfl
    · exact h.congr rfl rfl rfl
  unfold answerArmTrigger
  split
  · split
    · exact h
    split
    iterate 3 · exact h
    split
    · exact h
    · exact harm _ _
  · exact h

theorem disarmTrigger (trigger : Byte) : (answerDisarmTrigger trigger s).1.Held := by
  unfold answerDisarmTrigger
  split
  · exact h
  split
  · exact h
  all_goals exact h.disarm _

/-- Configure Line changes a line that no track owns, to one at rest (R126, R127). -/
theorem configureLine (line role rest filter capture : Byte) : (answerConfigureLine line role rest filter capture s).1.Held := by
  unfold answerConfigureLine
  split
  · rename_i l c _ _
    split
    · exact h
    split
    · exact h
    rename_i howner
    split
    · exact h
    · have hnone (t : TrackId) : s.tracks[t].group.getLsbD l ≠ true := by
        rw [Option.not_isSome_iff_eq_none, State.lineOwner, List.find?_eq_none] at howner
        exact howner t (List.mem_finRange t)
      have hset : (s.setLine l role.toNat (rest == 1) filter c).Held := by
        refine h.modifyLine l _ (fun t ht => absurd ht (hnone t)) fun _ driven hd => ?_
        dsimp only at hd ⊢
        split at hd
        · cases hd
        · cases hd; rfl
        · unfold LineRole.toInput at hd
          split at hd <;> cases hd
      exact hset.acceptUnfiltered l
  · exact h

theorem openSession (keepalive : Word16) : (answerOpenSession keepalive s).1.Held := by
  unfold answerOpenSession
  split
  · exact h
  · refine State.HeldBut.congr (s := if s.isOpen then s.endSession.answerDeferred else s) ?_ rfl rfl rfl
    split
    · exact h.endSession.answerDeferred
    · exact h

theorem ackEvents (seq : Word16) : (answerAckEvents seq s).1.Held := by
  unfold answerAckEvents
  split
  · split
    · refine h.congr (State.removeEvents_pages s _) (State.removeEvents_tracks s _) ?_
      unfold State.removeEvents
      dsimp only
      split <;> simp
    · exact h
  · exact h
  · exact h

/-- The answers of the timebase, the reference unit, the journal and the event unit leave pages, tracks and lines. -/
theorem otherUnits (divider maximum reserved : Byte) (interval : Word32) (window ack wait watermark seq : Word16) :
    (answerSetTick divider s).1.Held ∧ (answerSetReference interval window s).1.Held ∧
      (answerReadJournal ack maximum reserved wait s).1.Held ∧ (answerSetJournal watermark s).1.Held ∧
      (answerReplayEvents seq s).1.Held := by
  refine ⟨?_, ?_, ?_, ?_, ?_⟩
  · unfold answerSetTick
    iterate 4
      split
      · exact h
    dsimp only
    split
    · exact h
    · exact h.congr rfl rfl rfl
  · unfold answerSetReference
    iterate 2
      split
      · exact h
    exact h.congr rfl rfl rfl
  · unfold answerReadJournal
    dsimp only
    iterate 3
      split
      · exact h
    split
    · split
      · exact h
      · exact h.congr rfl rfl rfl
    · exact h.congr rfl rfl rfl
  · unfold answerSetJournal
    split
    · exact h
    · exact h.congr rfl rfl rfl
  · unfold answerReplayEvents
    split
    · exact h.congr rfl rfl rfl
    all_goals exact h

/-- A read changes nothing. -/
theorem reads (track page first trigger : Byte) : (answerReadTrack track s).1.Held ∧ (answerReadPage page first s).1.Held ∧
    (answerReadTrigger trigger s).1.Held := by
  unfold answerReadTrack answerReadPage answerReadTrigger
  refine ⟨?_, ?_, ?_⟩
  · split <;> exact h
  · split
    · exact h
    · split <;> exact h
  · split <;> exact h

/-- Whatever a request's owner answers, the law of groups and levels is kept. -/
theorem answer (hplaced : s.Placed) (i : Instr) : (ownerOf i s).1.Held := by
  cases i with
  | openSession tag keepalive => exact h.openSession keepalive
  | closeSession tag => exact h.endSession.answerDeferred
  | resetPart tag => exact h.congr rfl rfl rfl
  | ackEvents tag seq => exact h.ackEvents seq
  | replayEvents tag seq => exact (h.otherUnits 0 0 0 0 0 0 0 0 seq).2.2.2.2
  | setTick tag divider => exact (h.otherUnits divider 0 0 0 0 0 0 0 0).1
  | setReference tag interval window => exact (h.otherUnits 0 0 0 interval window 0 0 0 0).2.1
  | configureLine tag line role rest filter capture => exact h.configureLine line role rest filter capture
  | openPage tag period repeats flags reserved => exact h.openPage period repeats flags reserved
  | appendSteps tag page reserved records => exact h.appendSteps hplaced page reserved records
  | sealPage tag page => exact h.sealPage hplaced page
  | discardPage tag page => exact h.discardPage page
  | readPage tag page first => exact (h.reads 0 page first 0).2.1
  | configureTrack tag track enable policy options group rest => exact h.configureTrack track enable policy options group rest
  | queuePage tag page track => exact h.queuePage page track
  | flushQueue tag track => exact h.flushQueue track
  | startTrackAt tag track options trigger time offset => exact (h.starts track options trigger time offset).1
  | startTrackAfter tag track options trigger time offset => exact (h.starts track options trigger time offset).2.1
  | startTrackOnTrigger tag track options trigger time offset => exact (h.starts track options trigger time offset).2.2.1
  | startTrackAtEpoch tag track options trigger time offset => exact (h.starts track options trigger time offset).2.2.2
  | stopTrackAbort tag track => exact h.stopAbort track
  | stopTrackEnd tag track => exact h.stopEnd track
  | holdTrack tag track => exact h.holdTrack track
  | releaseTrack tag track => exact h.releaseTrackAnswer track
  | readTrack tag track => exact (h.reads track 0 0 0).1
  | armTrigger tag trigger line sense count flags => exact h.armTrigger trigger line sense count flags
  | disarmTrigger tag trigger => exact h.disarmTrigger trigger
  | readTrigger tag trigger => exact (h.reads 0 0 0 trigger).2.2
  | readJournal tag ack maximum reserved wait => exact (h.otherUnits 0 maximum reserved 0 0 ack wait 0 0).2.2.1
  | setJournal tag watermark => exact (h.otherUnits 0 0 0 0 0 0 0 watermark 0).2.2.2.1
  | _ => exact h

end State.HeldBut

/-- Executing a request changes no line but where its owner does. -/
theorem State.execute_lines (s : State) (f : Frame) (own : State → State × Answer) : (s.execute f own).lines = (own s).1.lines := by
  unfold State.execute
  rcases own s with ⟨s', status | owner⟩ <;> simp

/-- A property that a change of no page, track or line keeps, beside the placement of pages. -/
theorem State.placed_held_congr {s s' : State} (h : s.Placed ∧ s.Held) (hp : s'.pages = s.pages) (ht : s'.tracks = s.tracks)
    (hl : s'.lines = s.lines) : s'.Placed ∧ s'.Held := ⟨h.1.congr hp ht, h.2.congr hp ht hl⟩

/-- Pages stay placed and the law of groups and levels is kept under every operation of a step. -/
theorem State.held_invariant : State.Invariant fun s => s.Placed ∧ s.Held where
  pending _ _ h := State.placed_held_congr h rfl rfl rfl
  choices _ _ h := State.placed_held_congr h rfl rfl rfl
  advance s n h := State.placed_held_congr h (s.advance_pages n) (s.advance_tracks n) (by unfold State.advance; split <;> rfl)
  assemble _ _ _ _ h := State.placed_held_congr h rfl rfl rfl
  linkFault _ _ h := State.placed_held_congr h (by simp) (by simp) (by simp)
  restartSilence _ h := State.placed_held_congr h (by simp) (by simp) (by simp)
  byteDropped _ h := State.placed_held_congr h rfl rfl rfl
  byteTaken _ _ _ h := State.placed_held_congr h rfl rfl rfl
  pushReply _ _ _ h := State.placed_held_congr h rfl rfl rfl
  cacheReply _ _ h := State.placed_held_congr h (by simp) (by simp) (by simp)
  execute s f i _ _ _ h := State.placed_held_congr ⟨h.1.answer i, h.2.answer h.1 i⟩ (s.execute_pages f _).1 (s.execute_pages f _).2
    (s.execute_lines f _)
  send _ _ h := State.placed_held_congr h rfl rfl rfl
  noticeTaken _ _ h := State.placed_held_congr h rfl rfl rfl
  replyTaken _ _ _ _ h := State.placed_held_congr h rfl rfl rfl
  eventTaken _ _ _ _ h := State.placed_held_congr h rfl rfl rfl
  resetReplyTaken _ h := State.placed_held_congr h rfl rfl rfl
  loseLink _ h := ⟨h.1.loseLink, h.2.loseLink⟩
  beginReset _ _ _ := State.placed_held_congr
    ⟨State.reset_placed, State.reset_placed.linesHeld_iff.mp State.reset_linesHeld⟩ rfl rfl rfl
  endReset _ _ h := State.placed_held_congr h rfl rfl rfl
  endStartUp _ h := State.placed_held_congr h rfl rfl rfl
  freshSample _ h := State.placed_held_congr h rfl rfl rfl
  showLevel s l level h := ⟨State.placed_invariant.showLevel s l level h.1, h.2.showLevel l level⟩
  joinSample _ _ h := State.placed_held_congr h rfl rfl rfl
  acceptEdge _ l h := ⟨h.1.acceptEdge l, h.2.acceptEdge l⟩
  pulse _ h := ⟨h.1.pulse, h.2.pulse⟩
  missPulse _ h := ⟨h.1.missPulse, h.2.missPulse⟩
  discardFiring _ _ h := by
    unfold State.discardFiring
    split
    · exact State.placed_held_congr h rfl rfl rfl
    · exact h
  endGate _ t h := ⟨h.1.endGate t, h.2.endGate t⟩
  resumeReleased _ t h := ⟨h.1.resumeReleased t, h.2.resumeReleased t⟩
  expireRead _ h := by
    unfold State.expireRead
    split
    · exact h
    · exact State.placed_held_congr h (by simp) (by simp) (by simp)
  startEffect _ t h := ⟨h.1.startEffect t, h.2.startEffect t⟩
  releaseEffect _ t h := ⟨h.1.releaseEffect t, h.2.releaseEffect t⟩
  trackActions _ t h := ⟨h.1.trackActions t, h.2.trackActions t⟩

/-- Settles O58: with the placement of pages the law is an invariant of the operations of a step. -/
theorem stepsKeepLinesHeld : Obligations.StepsKeepLinesHeld := fun _ _ hplaced h ht =>
  have ⟨hplaced', h'⟩ := State.held_invariant.step ⟨hplaced, hplaced.linesHeld_iff.mp h⟩ ht
  hplaced'.linesHeld_iff.mpr h'

end Sys2Proof.Machine
end


section
/-! Read Track (R80, R188): the 65 bytes as a head that every state shares and the fields of the state (O32). -/
namespace Sys2Proof.Machine

theorem flagByte_two (a b : Bool) :
    flagByte [a, b] = u8 ((if a then 2 ^ 0 else 0) + if b then 2 ^ 1 else 0) := by
  simp [flagByte]

theorem flagByte_seven (a b c d e f g : Bool) :
    flagByte [a, b, c, d, e, f, g] =
      u8 ((if a then 2 ^ 0 else 0) + (if b then 2 ^ 1 else 0) + (if c then 2 ^ 2 else 0) + (if d then 2 ^ 3 else 0) +
        ((if e then 2 ^ 4 else 0) + ((if f then 2 ^ 5 else 0) + if g then 2 ^ 6 else 0))) := by
  simp [flagByte, Nat.add_assoc]

theorem flatMap_u8 {α : Type} (f : α → Nat) (l : List α) :
    (l.flatMap fun x => u8 (f x)) = l.map fun x => (BitVec.ofNat 8 (f x) : Byte) :=
  List.map_eq_flatMap.symm

theorem repIndexField_of_lt {n : Nat} (h : n < 65536) : repIndexField n = u16 n := by
  rw [repIndexField, if_pos h, u16]

/-- The part of the Read Track reply before the fields of the state; `late` are the flags of an armed start and of a release
start (R188). -/
def State.trackHead (s : State) (t : TrackId) (late : Nat) : List Byte :=
  u8 t.val ++ u8 s.tracks[t].state.code ++ le48 s.timeline ++ le16 s.tracks[t].group ++ u8 s.tracks[t].policy.code ++
    u8 ((if s.tracks[t].reportStarted then 2 ^ 0 else 0) + if s.tracks[t].reportRetired then 2 ^ 1 else 0) ++
    u8 s.tracks[t].queue.length ++
    ((s.tracks[t].queue.map fun p => (BitVec.ofNat 8 p.val : Byte)) ++ zeros 8).take 8 ++
    u8 ((if s.tracks[t].hold then 2 ^ 0 else 0) + (if s.tracks[t].stopRequest then 2 ^ 1 else 0) +
      (if s.tracks[t].looping then 2 ^ 2 else 0) + (if s.tracks[t].pendingConfig.isSome then 2 ^ 3 else 0) + late)

/-- The flags of the state: deferred start reply, LATE, release start set (R188). -/
def TrackState.lateFlags : TrackState → Nat
  | .armed ⟨.timed _ late, reply⟩ => (if reply then 2 ^ 4 else 0) + if late then 2 ^ 5 else 0
  | .armed ⟨_, reply⟩ => if reply then 2 ^ 4 else 0
  | .holding release => if release.isSome then 2 ^ 6 else 0
  | .disabled | .idle | .playing _ | .stalled _ _ | .faulted => 0

theorem Track.flags_eq (tr : Track) :
    tr.flags = u8 ((if tr.hold then 2 ^ 0 else 0) + (if tr.stopRequest then 2 ^ 1 else 0) + (if tr.looping then 2 ^ 2 else 0) +
      (if tr.pendingConfig.isSome then 2 ^ 3 else 0) + tr.state.lateFlags) := by
  rw [Track.flags, flagByte_seven]
  cases tr.state with
  | disabled | idle | playing | stalled | faulted => rfl
  | armed a =>
    obtain ⟨form, reply⟩ := a
    cases form with
    | timed start late => rfl
    | onTrigger k offset => rfl
    | onEpoch n offset => rfl
  | holding release => simp [TrackState.lateFlags]

theorem answerReadTrack_track (u : State) (t : TrackId) :
    answerReadTrack (BitVec.ofNat 8 t.val) u =
      (u, .say .ok (u.trackHead t u.tracks[t].state.lateFlags ++ u.stateFields u.tracks[t].state)) := by
  rw [answerReadTrack, idBelow_track]
  dsimp only
  rw [flagByte_two, flatMap_u8, Track.flags_eq, State.trackHead]

/-- Settles O32: the head with the flags of the state, and the fields of the state, for each state. -/
theorem readTrackReportsTheTrack : Obligations.ReadTrackReportsTheTrack := by
  unfold Obligations.ReadTrackReportsTheTrack
  intro s tag t _ hx
  have request : IsRequest (.readTrack tag (BitVec.ofNat 8 t.val)) 0x37 tag := ⟨fun _ => rfl, _, rfl, rfl, rfl⟩
  obtain ⟨session, hb⟩ := s.restartSilence_eq
  have reads {fields : List Byte} (hf : s.trackHead t s.tracks[t].state.lateFlags ++ s.stateFields s.tracks[t].state = fields) :
      exec (.readTrack tag (BitVec.ofNat 8 t.val)) s =
        .next (State.answered { s with session := session } 0xB7 tag .ok fields) :=
    request.reply hx hb ((answerReadTrack_track { s with session := session } t).trans (hf ▸ rfl))
  simp only [hb]
  refine ⟨fun c hst hrep => reads ?_, fun c g hst hrep => reads ?_, fun form reply hst => reads ?_, fun release hst => reads ?_,
    fun hst => reads ?_⟩
  · rw [hst, State.stateFields, Playback.fields, repIndexField_of_lt hrep]
    simp only [State.trackHead, hst, TrackState.lateFlags, List.append_assoc]
    rfl
  · rw [hst, State.stateFields, Playback.fields, repIndexField_of_lt hrep]
    simp only [State.trackHead, hst, TrackState.lateFlags, List.append_assoc]
  · cases form with
    | timed start late =>
      simp only [State.trackHead, State.stateFields, hst, TrackState.lateFlags, List.append_assoc]
      rfl
    | onTrigger k offset =>
      simp only [State.trackHead, State.stateFields, hst, TrackState.lateFlags, List.append_assoc]
      rfl
    | onEpoch n offset =>
      simp only [State.trackHead, State.stateFields, hst, TrackState.lateFlags, List.append_assoc]
      rfl
  · simp only [State.trackHead, State.stateFields, hst, TrackState.lateFlags, List.append_assoc]
    rfl
  · rcases hst with hst | hst | hst
    all_goals
      simp only [State.trackHead, State.stateFields, hst, TrackState.lateFlags, List.append_assoc]

end Sys2Proof.Machine
end


section
/-! Gates: a GATE step reached, and a STALLED track that leaves its gate (R55, R73, R99 to R104; O37, O38). -/
namespace Sys2Proof.Machine

/-! ### A GATE step is reached -/

section
variable {s : State} {t : TrackId} {c : Playback} {index : Nat} {o timeout : Word32} {k : TriggerId} {action : GateAction}
  {report : Bool}

theorem State.reachGate_fired {f a : Stamp} {v : Bool} (h : s.triggers[k].latch = .fired f a v) :
    s.reachGate t c index o k timeout action report =
      (s.consume k).queueEventIf report (.gateReleased t k .fired 0) := by
  unfold State.reachGate
  rw [h]

theorem State.reachGate_stalls (h : s.triggers[k].latch = .armed ∨ s.triggers[k].latch = .blocked) :
    s.reachGate t c index o k timeout action report = s.setTrackState t (.stalled c ⟨index, o, k, action, report, s.timeline,
      if timeout = 0 then none else some (s.timeline + ticks timeout), none⟩) := by
  unfold State.reachGate
  rcases h with h | h <;> rw [h]

theorem State.reachGate_continue (h : s.triggers[k].latch = .disarmed) :
    s.reachGate t c index o k timeout .continue report = s.queueEventIf report (.gateReleased t k .timeout 0) := by
  unfold State.reachGate
  rw [h]

theorem State.reachGate_fault (h : s.triggers[k].latch = .disarmed) :
    s.reachGate t c index o k timeout .fault report = s.gateFault t c k report 0 := by
  unfold State.reachGate
  rw [h]

end

/-- A gate's FAULT leaves the lines of the group at rest (R29, R102). -/
theorem State.gateFault_lines_open {s : State} {t : TrackId} (hopen : s.isOpen = true)
    (hnone : s.tracks[t].pendingConfig = none) (c : Playback) (k : TriggerId) (report : Bool) (stall : Stamp) :
    (s.gateFault t c k report stall).lines = (s.restLines s.tracks[t].group).lines := by
  obtain ⟨hu, _⟩ := State.gateFault_open hopen hnone c k report stall
  rw [hu]

/-- Settles O37: the latch decides, and what FAULT applies of a pending configuration is applied once. -/
theorem gatesFollowTheLatch : Obligations.GatesFollowTheLatch := by
  unfold Obligations.GatesFollowTheLatch
  intro s t c index o timeout k action report
  refine ⟨fun f a v hl => State.reachGate_fired hl, fun hl => State.reachGate_stalls hl, fun hl ha => ?_,
    fun hl ha hopen hnone => ?_, fun s' q hl ha happlied => ?_⟩
  · subst ha
    exact State.reachGate_continue hl
  · subst ha
    dsimp only
    rw [State.reachGate_fault hl]
    obtain ⟨hu, hanswered⟩ := State.gateFault_open hopen hnone c k report 0
    rw [State.gateFault_lines_open hopen hnone]
    exact ⟨hu, hanswered, fun l => State.restLines_get s _ l⟩
  · subst ha
    have hl' : (s.applyPending t).triggers[k].latch = .disarmed := by rw [State.applyPending_triggers, hl]
    dsimp only
    rw [happlied.eq, State.reachGate_fault hl, State.reachGate_fault hl', State.gateFault_applyPending]

/-! ### What is due does not depend on a pending configuration -/

/-- When each action is due, of the tracks and lines only their states and roles count. -/
theorem State.due_congr {s : State} {tracks : Vector Track 8} {lines : Vector Line 16}
    (htracks : ∀ u : TrackId, tracks[u].state = s.tracks[u].state) (hlines : ∀ l : LineId, lines[l].role = s.lines[l].role)
    (c : Instr) : State.due { s with tracks := tracks, lines := lines } c = s.due c := by
  have hedge (l : LineId) : State.edgeDelay { s with tracks := tracks, lines := lines } l = s.edgeDelay l := by
    unfold State.edgeDelay
    dsimp only
    rw [hlines l]
    rfl
  cases c with
  | gateExpiry t =>
    show State.gateDelay _ t = s.gateDelay t
    unfold State.gateDelay
    dsimp only
    rw [htracks t]
    rfl
  | gateResume t =>
    show State.resumeDelay _ t = s.resumeDelay t
    unfold State.resumeDelay
    dsimp only
    rw [htracks t]
    rfl
  | armedStartEffect t =>
    show State.startDelay _ t = s.startDelay t
    unfold State.startDelay
    dsimp only
    rw [htracks t]
    rfl
  | releaseStartEffect t =>
    show State.releaseDelay _ t = s.releaseDelay t
    unfold State.releaseDelay
    dsimp only
    rw [htracks t]
    rfl
  | trackActionTick t =>
    show State.actionDelay _ t = s.actionDelay t
    unfold State.actionDelay
    dsimp only
    rw [htracks t]
    rfl
  | edgeAcceptance l =>
    show State.edgeTurn _ l = s.edgeTurn l
    simp only [State.edgeTurn, hedge]
  | _ => rfl

section
variable (s : State) (t : TrackId)

/-- A pending configuration, applied, changes the tracks' and lines' records alone. -/
theorem State.applyPending_eq_self_tracks_lines :
    s.applyPending t = { s with tracks := (s.applyPending t).tracks, lines := (s.applyPending t).lines } := by
  unfold State.applyPending
  split <;> rfl

theorem State.applyPending_role (l : LineId) : (s.applyPending t).lines[l].role = s.lines[l].role := by
  rw [State.applyPending_line]
  split <;> rfl

theorem State.applyPending_due (c : Instr) : (s.applyPending t).due c = s.due c := by
  rw [State.applyPending_eq_self_tracks_lines]
  exact State.due_congr (s.applyPending_state t) (s.applyPending_role t) c

theorem State.dueAfter.applyPending {s : State} {c : Instr} {d : Nat} (h : s.dueAfter c d) (t : TrackId) :
    (s.applyPending t).dueAfter c d := by
  obtain ⟨hdue, hbefore⟩ := h
  refine ⟨(s.applyPending_due t c).trans hdue, ?_⟩
  simpa only [State.nothingBefore, State.applyPending_due] using hbefore

theorem State.applyPending_afterPeriods (d : Nat) :
    (s.applyPending t).afterPeriods d = (s.afterPeriods d).applyPending t := by
  cases hq : s.tracks[t].pendingConfig with
  | none =>
    have hq' : (s.afterPeriods d).tracks[t].pendingConfig = none := by rw [State.afterPeriods_tracks]; exact hq
    rw [State.applyPending_none hq, State.applyPending_none hq']
  | some q =>
    have hq' : (s.afterPeriods d).tracks[t].pendingConfig = some q := by rw [State.afterPeriods_tracks]; exact hq
    rw [State.applyPending_some hq, State.applyPending_some hq', State.afterPeriods, State.afterPeriods]
    split
    · rfl
    · unfold State.advance
      split <;> rfl

end

/-! ### A STALLED track leaves its gate -/

theorem State.resumeReleased_stalled {s : State} {t : TrackId} {c : Playback} {g : GateWait}
    (hst : s.tracks[t].state = .stalled c g) : s.resumeReleased t = s.resumePage t c g .fired := by
  unfold State.resumeReleased
  rw [hst]

theorem exec_gateExpiry_of_dueAfter {s : State} {t : TrackId} {d : Nat} (h : s.dueAfter (.gateExpiry t) d) :
    exec (.gateExpiry t) s = .next ((s.afterPeriods d).endGate t) :=
  congrArg Host.Outcome.next (State.atDue_of_dueAfter h _)

theorem exec_gateResume_of_dueAfter {s : State} {t : TrackId} {d : Nat} (h : s.dueAfter (.gateResume t) d) :
    exec (.gateResume t) s = .next ((s.afterPeriods d).resumeReleased t) :=
  congrArg Host.Outcome.next (State.atDue_of_dueAfter h _)

/-- Settles O38: the gate ends on the part as it stands when its time has come. -/
theorem stalledTracksLeaveTheirGate : Obligations.StalledTracksLeaveTheirGate := by
  unfold Obligations.StalledTracksLeaveTheirGate
  intro s t c g d _ hst
  dsimp only
  intro hopen
  have hst' : (s.afterPeriods d).tracks[t].state = .stalled c g := by rw [State.afterPeriods_tracks]; exact hst
  refine ⟨fun hdue => ?_, fun hdue ha => ?_, fun hdue ha hnone => ?_, fun s' q hdue ha happlied => ?_⟩
  · rw [exec_gateResume_of_dueAfter hdue, State.resumeReleased_stalled hst', State.resumePage_open hopen,
      State.afterPeriods_tracks, State.afterPeriods_events]
  · rw [exec_gateExpiry_of_dueAfter hdue, State.endGate_continue hst' ha, State.resumePage_open hopen,
      State.afterPeriods_tracks, State.afterPeriods_events]
  · have hnone' : (s.afterPeriods d).tracks[t].pendingConfig = none := by rw [State.afterPeriods_tracks]; exact hnone
    refine ⟨_, exec_gateExpiry_of_dueAfter hdue, ?_⟩
    rw [State.endGate_fault hst' ha, State.gateFault_lines_open hopen hnone']
    obtain ⟨hu, hanswered⟩ :=
      State.gateFault_open hopen hnone' c g.trigger g.report ((s.afterPeriods d).timeline - g.reached)
    have hrest (l : LineId) := State.restLines_get (s.afterPeriods d) (s.afterPeriods d).tracks[t].group l
    simp only [State.afterPeriods_tracks, State.afterPeriods_pages, State.afterPeriods_events, State.afterPeriods_lines]
      at hu hanswered hrest ⊢
    exact ⟨hu, hanswered, hrest⟩
  · have hst'' : ((s.afterPeriods d).applyPending t).tracks[t].state = .stalled c g :=
      (State.applyPending_state _ t t).trans hst'
    rw [happlied.eq, exec_gateExpiry_of_dueAfter hdue, exec_gateExpiry_of_dueAfter (hdue.applyPending t),
      State.applyPending_afterPeriods, State.endGate_fault hst' ha, State.endGate_fault hst'' ha,
      State.gateFault_applyPending, State.applyPending_timeline]

end Sys2Proof.Machine
end


section
/-! The clock's facts: when the timeline reaches a tick (R106, R107), and the page time at which a PLAYING track acts next (R33,
R34). -/
namespace Sys2Proof.Machine

/-! ### The timeline and the wait until a tick -/

section
variable {s : State} (hpre : s.prescale < s.divider) (hrun : s.phase ≠ .reset)
include hpre hrun

theorem State.afterPeriods_timeline (n : Nat) :
    (s.afterPeriods n).timeline = s.timeline + BitVec.ofNat 48 ((s.prescale + n) / s.divider) := by
  unfold State.afterPeriods
  split
  · next hn => rw [hn, Nat.add_zero, Nat.div_eq_of_lt hpre, BitVec.add_zero]
  · rw [State.advance, if_neg hrun]

/-- The timeline stands at a tick once the divider has counted that far. -/
theorem State.afterPeriods_periodsTo {x : Stamp} (hx : 0 < (x - s.timeline).toInt) :
    (s.afterPeriods (s.periodsTo x)).timeline = x := by
  have hsum : s.prescale + s.periodsTo x = (x - s.timeline).toNat * s.divider := by
    have hpos : 0 < (x - s.timeline).toNat := Nat.pos_of_ne_zero fun h0 => by
      rw [BitVec.eq_of_toNat_eq (y := 0#48) h0] at hx
      exact absurd hx (by decide)
    have hle : s.divider ≤ (x - s.timeline).toNat * s.divider := Nat.le_mul_of_pos_left _ hpos
    rw [State.periodsTo, if_pos hx]
    omega
  rw [State.afterPeriods_timeline hpre hrun, hsum, Nat.mul_div_cancel _ (by omega), BitVec.ofNat_toNat, BitVec.setWidth_eq,
    BitVec.add_comm, BitVec.sub_add_cancel]

theorem State.afterPeriods_ne_of_lt {x : Stamp} (hx : 0 < (x - s.timeline).toInt) {n : Nat} (hn : n < s.periodsTo x) :
    (s.afterPeriods n).timeline ≠ x := by
  rw [State.afterPeriods_timeline hpre hrun]
  intro heq
  rw [State.periodsTo, if_pos hx] at hn
  have hlt : (s.prescale + n) / s.divider < (x - s.timeline).toNat :=
    Nat.div_lt_of_lt_mul (by rw [Nat.mul_comm]; omega)
  have hcount : BitVec.ofNat 48 ((s.prescale + n) / s.divider) = x - s.timeline := by
    rw [← heq, BitVec.add_comm, BitVec.add_sub_cancel]
  have hwidth := (x - s.timeline).isLt
  rw [← hcount, BitVec.toNat_ofNat, Nat.mod_eq_of_lt (by omega)] at hlt
  exact Nat.lt_irrefl _ hlt

end

theorem State.periodsTo_of_not_ahead {s : State} {x : Stamp} (h : ¬0 < (x - s.timeline).toInt) : s.periodsTo x = 0 := if_neg h

/-! ### The page time at which a PLAYING track acts next -/

theorem foldl_min_eq_of_least {o : Nat} : ∀ (l : List Nat) (a : Nat), o = a ∨ o ∈ l → o ≤ a → (∀ x ∈ l, o ≤ x) →
    l.foldl min a = o
  | [], a, hmem, _, _ => (hmem.resolve_right List.not_mem_nil).symm
  | x :: rest, a, hmem, ha, hl => by
    obtain ⟨hx, hrest⟩ := List.forall_mem_cons.mp hl
    refine foldl_min_eq_of_least rest (min a x) ?_ (Nat.le_min.mpr ⟨ha, hx⟩) hrest
    rcases hmem with rfl | hmem
    · exact .inl (Nat.min_eq_left hx).symm
    · rcases List.mem_cons.mp hmem with rfl | hmem
      · exact .inl (Nat.min_eq_right ha).symm
      · exact .inr hmem

/-- The next page time is the least of the period, the pending pulse ends and the next step's offset (R34). -/
theorem State.nextPoint_eq_of_least {s : State} {c : Playback} {o : Nat}
    (hmem : o = s.pages[c.page].period.toNat ∨ (∃ e ∈ c.pulseEnds, e.offset.toNat = o) ∨
      ∃ st, (s.pages[c.page].steps.drop c.nextStep).head? = some st ∧ st.offset.toNat = o)
    (hperiod : o ≤ s.pages[c.page].period.toNat) (hends : ∀ e ∈ c.pulseEnds, o ≤ e.offset.toNat)
    (hstep : ∀ st, (s.pages[c.page].steps.drop c.nextStep).head? = some st → o ≤ st.offset.toNat) : s.nextPoint c = o := by
  have htake (x : Nat) : x ∈ ((s.pages[c.page].steps.drop c.nextStep).take 1).map (·.offset.toNat) ↔
      ∃ st, (s.pages[c.page].steps.drop c.nextStep).head? = some st ∧ st.offset.toNat = x := by
    cases s.pages[c.page].steps.drop c.nextStep with
    | nil => simp
    | cons st rest => simp [eq_comm]
  refine foldl_min_eq_of_least _ _ (hmem.imp_right fun h => ?_) hperiod fun x hx => ?_
  · exact List.mem_append.mpr (h.imp (fun ⟨e, he, heq⟩ => List.mem_map.mpr ⟨e, he, heq⟩) (htake o).mpr)
  · rcases List.mem_append.mp hx with hx | hx
    · obtain ⟨e, he, rfl⟩ := List.mem_map.mp hx
      exact hends e he
    · obtain ⟨st, hst, rfl⟩ := (htake x).mp hx
      exact hstep st hst

theorem State.afterPeriods_nextPoint (s : State) (d : Nat) (c : Playback) : (s.afterPeriods d).nextPoint c = s.nextPoint c := by
  simp only [State.nextPoint, State.afterPeriods_pages]

/-- The actions of a PLAYING track are due when its page time reaches the next one, at b plus o plus a (R33, R34). -/
theorem State.due_trackActionTick {s : State} {t : TrackId} {c : Playback} (hc : s.tracks[t].state = .playing c) {o : Word32}
    (hpoint : s.nextPoint c = o.toNat) :
    s.due (.trackActionTick t) = some (s.periodsTo (c.repStart + o.setWidth 48 + c.stall)) := by
  show s.actionDelay t = _
  unfold State.actionDelay
  rw [hc]
  dsimp only
  rw [hpoint, tickCount, BitVec.ofNat_toNat, State.periodsUntil_eq_periodsTo, BitVec.add_assoc, BitVec.add_comm c.stall,
    ← BitVec.add_assoc]

theorem exec_trackActionTick_of_dueAfter {s : State} {t : TrackId} {d : Nat} (h : s.dueAfter (.trackActionTick t) d) :
    exec (.trackActionTick t) s = .next ((s.afterPeriods d).trackActions t) :=
  congrArg Host.Outcome.next (State.atDue_of_dueAfter h _)

section
variable {s : State} {t : TrackId} {c : Playback} {time : Nat}

theorem State.trackActions_before_period (hc : s.tracks[t].state = .playing c) (hpoint : s.nextPoint c = time)
    (hlt : time < s.pages[c.page].period.toNat) : s.trackActions t = (s.pulsesDue t c time).playFrom t time := by
  unfold State.trackActions
  rw [hc]
  dsimp only
  rw [hpoint, if_neg (Nat.ne_of_lt hlt)]

theorem State.trackActions_at_period (hc : s.tracks[t].state = .playing c) (hpoint : s.nextPoint c = time)
    (heq : time = s.pages[c.page].period.toNat) :
    s.trackActions t = ((s.pulsesDue t c time).boundary t
      { c with pulseEnds := c.pulseEnds.filter fun e => e.offset.toNat != time }).playFrom t 0 := by
  unfold State.trackActions
  rw [hc]
  dsimp only
  rw [hpoint, if_pos heq]

end

end Sys2Proof.Machine
end


section
/-! The actions of a PLAYING track: its steps, its pulse ends and its period (R4 to R8, R33 to R39; O34, O35). -/
namespace Sys2Proof.Machine

/-! ### What a line's level can do -/

section
variable {ln : Line} (h : ∀ x, ln.role ≠ .output x)
include h

theorem Line.drive_other (level : Bool) : ln.drive level = ln := by
  unfold Line.drive
  split
  · next x hrole => exact absurd hrole (h x)
  · rfl
  · rfl

theorem Line.toggle_other : ln.toggle = ln := by
  unfold Line.toggle
  split
  · next x hrole => exact absurd hrole (h x)
  · rfl
  · rfl

end

/-! ### The pulse ends due -/

theorem State.setTrackState_of_state {s : State} {t : TrackId} {st : TrackState} (h : s.tracks[t].state = st) :
    s.setTrackState t st = s := by
  subst h
  show { s with tracks := s.tracks.set t s.tracks[t] } = s
  rw [show s.tracks.set t s.tracks[t] = s.tracks from Vector.set_getElem_self _]

theorem State.setTrackState_setTrackState (s : State) (t : TrackId) (a b : TrackState) :
    (s.setTrackState t a).setTrackState t b = s.setTrackState t b := by
  simp [State.setTrackState, State.modifyTrack]

@[simp] theorem State.endPulses_timeline (s : State) (ends : List PulseEnd) : (s.endPulses ends).timeline = s.timeline :=
  foldl_keeps (P := fun u => u.timeline = s.timeline) (fun u e hu => (u.driveAll_timeline e.lines e.level).trans hu) ends s rfl

/-- With no pulse end due, nothing changes (R35). -/
theorem State.pulsesDue_none {s : State} {t : TrackId} {c : Playback} (hc : s.tracks[t].state = .playing c) {time : Nat}
    (h : ∀ e ∈ c.pulseEnds, e.offset.toNat ≠ time) : s.pulsesDue t c time = s := by
  have hnone : (c.pulseEnds.filter fun e => e.offset.toNat == time) = [] :=
    List.filter_eq_nil_iff.mpr fun e he => by simpa using h e he
  have hall : (c.pulseEnds.filter fun e => e.offset.toNat != time) = c.pulseEnds :=
    List.filter_eq_self.mpr fun e he => by simpa using h e he
  rw [State.pulsesDue, hnone, hall]
  exact State.setTrackState_of_state hc

/-- After pulse ends the track's record is that of before with its state. -/
theorem State.endPulses_setTrackState (s : State) (ends : List PulseEnd) (t : TrackId) (st : TrackState) :
    (s.endPulses ends).setTrackState t st = { s.endPulses ends with
      tracks := s.tracks.set t { s.tracks[t] with state := st } } := by
  rw [State.setTrackState, State.modifyTrack, State.endPulses_tracks]

/-! ### Steps -/

section
variable {s : State} {t : TrackId} {time : Nat} {st : Step} {rest : List Step}

theorem State.takeSteps_now {c : Playback} (hc : s.tracks[t].state = .playing c) (h : st.offset.toNat = time) :
    State.takeSteps t time (st :: rest) s = State.takeSteps t time rest (s.takeStep t c st) := by
  rw [State.takeSteps, hc]
  exact if_pos h

theorem State.takeSteps_later (h : st.offset.toNat ≠ time) : State.takeSteps t time (st :: rest) s = s := by
  rw [State.takeSteps]
  split
  · exact if_neg h
  · rfl

theorem State.takeSteps_not_playing (h : ∀ c, s.tracks[t].state ≠ .playing c) :
    State.takeSteps t time (st :: rest) s = s := by
  rw [State.takeSteps]
  split
  · next c hc => exact absurd hc (h c)
  · rfl

theorem State.playFrom_playing {c : Playback} (hc : s.tracks[t].state = .playing c) :
    s.playFrom t time = State.takeSteps t time (s.pages[c.page].steps.drop c.nextStep) s := by
  unfold State.playFrom
  rw [hc]

end

/-- A PULSE step's end takes its place in the list (R35). -/
theorem State.takeStep_pulse (s : State) (t : TrackId) (c : Playback) (o w : Word32) (m : LineSet) (level : Bool) :
    ∃ before after : List PulseEnd, c.pulseEnds = before ++ after ∧
      (∀ e ∈ before, e.offset.toNat ≤ (pulseEnd o m level w).offset.toNat) ∧
      (∀ e, after.head? = some e → (pulseEnd o m level w).offset.toNat < e.offset.toNat) ∧
      { s.takeStep t c (.pulse o m level w) with lines := s.lines } = s.setTrackState t
        (.playing { c with nextStep := c.nextStep + 1, pulseEnds := before ++ pulseEnd o m level w :: after }) ∧
      (c.pulseEnds.Pairwise (fun a b => a.offset.toNat ≤ b.offset.toNat) →
        (before ++ pulseEnd o m level w :: after).Pairwise fun a b => a.offset.toNat ≤ b.offset.toNat) := by
  obtain ⟨before, after, hsplit, hinsert, hbefore, hafter, hsorted⟩ := insertPulse_split (pulseEnd o m level w) c.pulseEnds
  refine ⟨before, after, hsplit, hbefore, hafter, ?_, hsorted⟩
  rw [← hinsert]
  rfl

/-- Settles O34: the next step's offset is the next page time at which the track acts, and no pulse end is due there. -/
theorem stepsTakeEffectAtTheirOffset : Obligations.StepsTakeEffectAtTheirOffset := by
  unfold Obligations.StepsTakeEffectAtTheirOffset
  refine ⟨fun s t c st rest d hc hends hsteps hperiod hdue => ?_, fun s t time st rest => ?_,
    fun s t c o w m v level code => ?_, fun rest driven level role => ?_⟩
  · have hpoint : s.nextPoint c = st.offset.toNat := by
      refine State.nextPoint_eq_of_least (.inr (.inr ⟨st, by rw [hsteps]; rfl, rfl⟩)) hperiod.le (fun e he => (hends e he).le) ?_
      rw [hsteps]
      rintro _ ⟨⟩
      exact le_rfl
    have hc' : (s.afterPeriods d).tracks[t].state = .playing c := by rw [State.afterPeriods_tracks]; exact hc
    have hd : d = s.periodsTo (c.repStart + st.offset.setWidth 48 + c.stall) :=
      Option.some.inj (hdue.1.symm.trans (State.due_trackActionTick hc hpoint))
    refine ⟨?_, fun hahead hpre hrun => ?_, fun hpast => ?_⟩
    · rw [exec_trackActionTick_of_dueAfter hdue,
        State.trackActions_before_period hc' ((s.afterPeriods_nextPoint d c).trans hpoint)
          (by rw [State.afterPeriods_pages]; exact hperiod),
        State.pulsesDue_none hc' fun e he => (hends e he).ne', State.playFrom_playing hc', State.afterPeriods_pages, hsteps]
    · rw [hd]
      exact State.afterPeriods_periodsTo hpre hrun hahead
    · rw [hd]
      exact State.periodsTo_of_not_ahead hpast
  · exact ⟨rfl, fun c hc h => State.takeSteps_now hc h, State.takeSteps_later, State.takeSteps_not_playing⟩
  · exact ⟨s.mapLines_get m fun l ln => ln.drive (v.getLsbD l), rfl, s.mapLines_get m fun _ ln => ln.toggle, rfl,
      s.mapLines_get m fun _ ln => ln.drive level, State.takeStep_pulse s t c o w m level, rfl, fun _ _ _ _ => rfl⟩
  · refine ⟨rfl, rfl, rfl, fun hrole => ⟨Line.drive_other hrole level, Line.toggle_other hrole, Line.toRest_other hrole⟩⟩

/-! ### Pulse ends and the period -/

theorem State.repeats_iff (s : State) (t : TrackId) (c : Playback) :
    s.repeats t c = true ↔ if s.pages[c.page].repeats = 0
      then s.tracks[t].queue = [] ∧ s.tracks[t].hold = false ∧ s.tracks[t].stopRequest = false
      else c.repIndex + 1 < s.pages[c.page].repeats.toNat := by
  have hzero : s.pages[c.page].repeats.toNat = 0 ↔ s.pages[c.page].repeats = 0 := BitVec.toNat_eq (y := 0) |>.symm
  unfold State.repeats
  by_cases h : s.pages[c.page].repeats = 0
  · rw [if_pos (hzero.mpr h), if_pos h]
    simp [and_assoc]
  · rw [if_neg (mt hzero.mp h), if_neg h, decide_eq_true_iff]

section
variable {s : State} {t : TrackId} {c : Playback}

theorem State.boundary_repeats (h : s.repeats t c = true) :
    s.boundary t c = s.setTrackState t (.playing { c with
      repsPlayed := min (c.repsPlayed + 1) 4294967295, repIndex := c.repIndex + 1, repStart := s.timeline, nextStep := 0,
      stall := 0 }) := if_pos h

theorem State.boundary_ends (h : ¬s.repeats t c = true) :
    s.boundary t c = s.runEnd t { c with repsPlayed := min (c.repsPlayed + 1) 4294967295 } := if_neg h

end

/-- Pulse ends that take effect leave open whether another repetition begins. -/
theorem State.pulsesDue_repeats (s : State) (t : TrackId) (c : Playback) (time : Nat) (c' : Playback) :
    (s.pulsesDue t c time).repeats t c' = s.repeats t c' := by
  simp only [State.repeats, State.pulsesDue, State.endPulses_setTrackState, State.endPulses_pages]
  simp

section
variable {s : State} {t : TrackId} {c : Playback} (hc : s.tracks[t].state = .playing c)
include hc

/-- Before the period the pulse ends due take effect, and the steps at that page time follow (R34, R35). -/
theorem State.trackActions_pulseEnds {time : Nat} (hsome : (c.pulseEnds.filter fun e => e.offset.toNat == time) ≠ [])
    (hends : ∀ f ∈ c.pulseEnds, time ≤ f.offset.toNat) (hperiod : time < s.pages[c.page].period.toNat)
    (hsteps : ∀ st ∈ s.pages[c.page].steps.drop c.nextStep, time ≤ st.offset.toNat) :
    s.trackActions t = State.playFrom { s.endPulses (c.pulseEnds.filter fun e => e.offset.toNat == time) with
      tracks := s.tracks.set t { s.tracks[t] with
        state := .playing { c with pulseEnds := c.pulseEnds.filter fun e => e.offset.toNat != time } } } t time := by
  obtain ⟨e, he⟩ := List.exists_mem_of_ne_nil _ hsome
  obtain ⟨hmem, htime⟩ := List.mem_filter.mp he
  have hpoint : s.nextPoint c = time := State.nextPoint_eq_of_least (.inr (.inl ⟨e, hmem, beq_iff_eq.mp htime⟩)) hperiod.le
    hends fun st hst => hsteps st (List.mem_of_mem_head? hst)
  rw [State.trackActions_before_period hc hpoint hperiod, State.pulsesDue, State.endPulses_setTrackState]

end

theorem State.nextPoint_eq_period {s : State} {c : Playback}
    (hends : ∀ f ∈ c.pulseEnds, s.pages[c.page].period.toNat ≤ f.offset.toNat)
    (hsteps : s.pages[c.page].steps.length ≤ c.nextStep) : s.nextPoint c = s.pages[c.page].period.toNat := by
  refine State.nextPoint_eq_of_least (.inl rfl) le_rfl hends fun st hst => ?_
  rw [List.drop_of_length_le hsteps] at hst
  cases hst

/-- Settles O35: the least page time is that of the pulse ends or the period; at the period the repetition's end decides. -/
theorem pageTimeRunsToThePeriod : Obligations.PageTimeRunsToThePeriod := by
  unfold Obligations.PageTimeRunsToThePeriod
  refine ⟨fun s t c d hc hdue => ?_, fun _ => rfl, fun s e later =>
    ⟨s.driveAll e.lines e.level, rfl, rfl, s.mapLines_get e.lines fun _ ln => ln.drive e.level⟩⟩
  dsimp only
  have hc' : (s.afterPeriods d).tracks[t].state = .playing c := by rw [State.afterPeriods_tracks]; exact hc
  have htracks := s.afterPeriods_tracks d
  have hpages := s.afterPeriods_pages d
  rw [exec_trackActionTick_of_dueAfter hdue]
  refine ⟨fun time hsome hends hperiod hsteps => ?_, fun hends hsteps => ?_⟩
  · rw [State.trackActions_pulseEnds hc' hsome hends (by rw [hpages]; exact hperiod) (by rw [hpages]; exact hsteps), htracks]
  · have hpoint : (s.afterPeriods d).nextPoint c = s.pages[c.page].period.toNat :=
      (s.afterPeriods_nextPoint d c).trans (State.nextPoint_eq_period hends hsteps)
    have hrepeats := State.repeats_iff (s.afterPeriods d) t
      { c with pulseEnds := c.pulseEnds.filter fun e => e.offset.toNat != s.pages[c.page].period.toNat }
    rw [hpages, htracks] at hrepeats
    rw [State.trackActions_at_period hc' hpoint (by rw [hpages])]
    refine ⟨fun hgoes => ?_, fun hstops => ?_⟩
    · rw [State.boundary_repeats ((State.pulsesDue_repeats ..).trans (hrepeats.mpr hgoes)), State.pulsesDue,
        State.setTrackState_setTrackState, State.endPulses_setTrackState, htracks]
      simp
    · rw [State.boundary_ends (by rw [State.pulsesDue_repeats]; exact mt hrepeats.mp hstops), State.pulsesDue,
        State.endPulses_setTrackState, htracks]

end Sys2Proof.Machine
end


section
/-! When each of the part's own actions is due, and the discard of a held firing (R67, R77, R90, R100, R101, R114, R123, R135,
R141, R165, R174, R181, R184, R185; O42). -/
namespace Sys2Proof.Machine

/-! ### What is due of a track -/

section
variable (s : State) (t : TrackId)

theorem State.due_armedStartEffect : s.due (.armedStartEffect t) = match s.tracks[t].state with
    | .armed ⟨.timed start _, _⟩ => some (s.periodsTo start)
    | _ => none := by
  show s.startDelay t = _
  unfold State.startDelay
  cases s.tracks[t].state with
  | armed start =>
    obtain ⟨form, reply⟩ := start
    cases form with
    | timed start late => exact congrArg some (s.periodsUntil_eq_periodsTo start)
    | onTrigger | onEpoch => rfl
  | disabled | idle | playing | stalled | holding | faulted => rfl

theorem State.due_releaseStartEffect : s.due (.releaseStartEffect t) = match s.tracks[t].state with
    | .holding (some start) => some (s.periodsTo start)
    | _ => none := by
  show s.releaseDelay t = _
  unfold State.releaseDelay
  cases s.tracks[t].state with
  | holding release =>
    cases release with
    | none => rfl
    | some start => exact congrArg some (s.periodsUntil_eq_periodsTo start)
  | disabled | idle | armed | playing | stalled | faulted => rfl

theorem State.due_gateExpiry : s.due (.gateExpiry t) = match s.tracks[t].state with
    | .stalled _ ⟨_, _, _, _, _, _, some expiry, none⟩ => some (s.periodsTo expiry)
    | _ => none := by
  show s.gateDelay t = _
  unfold State.gateDelay
  cases s.tracks[t].state with
  | stalled c g =>
    obtain ⟨index, offset, k, action, report, reached, expiry, resume⟩ := g
    cases resume with
    | some resume => cases expiry <;> rfl
    | none =>
      cases expiry with
      | none => rfl
      | some expiry => exact congrArg some (s.periodsUntil_eq_periodsTo expiry)
  | disabled | idle | armed | playing | holding | faulted => rfl

theorem State.due_gateResume : s.due (.gateResume t) = match s.tracks[t].state with
    | .stalled _ ⟨_, _, _, _, _, _, _, some resume⟩ => some (s.periodsTo resume)
    | _ => none := by
  show s.resumeDelay t = _
  unfold State.resumeDelay
  cases s.tracks[t].state with
  | stalled c g =>
    obtain ⟨index, offset, k, action, report, reached, expiry, resume⟩ := g
    cases resume with
    | none => rfl
    | some resume => exact congrArg some (s.periodsUntil_eq_periodsTo resume)
  | disabled | idle | armed | playing | holding | faulted => rfl

end

theorem State.due_trackActionTick_none {s : State} {t : TrackId} (h : ∀ c, s.tracks[t].state ≠ .playing c) :
    s.due (.trackActionTick t) = none := by
  show s.actionDelay t = none
  unfold State.actionDelay
  cases hst : s.tracks[t].state with
  | playing c => exact absurd hst (h c)
  | disabled | idle | armed | stalled | holding | faulted => rfl

/-! ### The turn of a candidate -/

section
variable {s : State} {l : LineId} {d : Nat}

theorem State.edgeTurn_none (h : s.edgeDelay l = none) : s.edgeTurn l = none := by
  rw [State.edgeTurn, h]

theorem noLater_iff (d : Nat) (delay : Option Nat) : noLater d delay = true ↔ ∃ e, delay = some e ∧ e ≤ d := by
  cases delay <;> simp [noLater]

/-- A lower line's candidate that is due no later comes first (R135). -/
theorem State.edgeBefore_iff (s : State) (l : LineId) (d : Nat) :
    (allLines.any fun m => decide (m < l) && noLater d (s.edgeDelay m)) = true ↔
      ∃ m e, m < l ∧ s.edgeDelay m = some e ∧ e ≤ d := by
  simp [allLines, noLater_iff]

theorem State.edgeTurn_first (h : s.edgeDelay l = some d) (hfirst : ∀ m e, m < l → s.edgeDelay m = some e → d < e) :
    s.edgeTurn l = some d := by
  rw [State.edgeTurn, h]
  refine if_neg fun hbefore => ?_
  obtain ⟨m, e, hm, he, hle⟩ := (s.edgeBefore_iff l d).mp hbefore
  exact Nat.not_lt.mpr hle (hfirst m e hm he)

theorem State.edgeTurn_waits (h : s.edgeDelay l = some d) (hbefore : ∃ m e, m < l ∧ s.edgeDelay m = some e ∧ e ≤ d) :
    s.edgeTurn l = none := by
  rw [State.edgeTurn, h]
  exact if_pos ((s.edgeBefore_iff l d).mpr hbefore)

end

theorem State.edgeDelay_eq (s : State) (l : LineId) : s.edgeDelay l = match s.lines[l].role with
    | .input filter _ _ (some f) =>
      if s.sample.accepted.getLsbD l then none else some (s.periodsTo (f + filter.setWidth 48))
    | _ => none := by
  unfold State.edgeDelay
  cases s.lines[l].role with
  | unused | output => rfl
  | input filter capture sensed candidate =>
    cases candidate with
    | none => rfl
    | some f =>
      dsimp only
      rw [State.periodsUntil_eq_periodsTo]

/-! ### What is due of the other units -/

theorem State.due_firingAgeDiscard (s : State) (k : TriggerId) : s.due (.firingAgeDiscard k) = match s.triggers[k].latch with
    | .fired _ c _ => some (s.periodsTo (c + BitVec.ofNat 48 (2 ^ 46)))
    | _ => none := by
  show s.discardDelay k = _
  unfold State.discardDelay
  cases s.triggers[k].latch with
  | fired f c overrun => exact congrArg some (s.periodsUntil_eq_periodsTo _)
  | disarmed | armed | blocked => rfl

theorem State.due_missingPulseExpiry (s : State) : s.due .missingPulseExpiry = s.reference.base.map fun base =>
    s.periodsTo (base + s.reference.interval.setWidth 48 + s.reference.window.setWidth 48) := by
  show s.reference.expiry.map s.periodsUntil = _
  rw [Reference.expiry, Option.map_map]
  exact congrArg (s.reference.base.map ·) (funext fun base => s.periodsUntil_eq_periodsTo _)

theorem State.due_gapTimeout (s : State) : s.due .gapTimeout = match s.link.assembler with
    | .length | .body => some (gapPeriods s.linkRate - s.link.sinceByte)
    | _ => none := by
  show s.gapDelay = _
  unfold State.gapDelay
  rw [gapLimit_eq_gapPeriods]
  cases s.link.assembler <;> rfl

theorem State.due_startUpEnd (s : State) : s.due .startUpEnd = match s.phase with
    | .startUp remaining => some remaining
    | _ => none := by
  show s.startUpDelay = _
  unfold State.startUpDelay
  cases s.phase <;> rfl

theorem State.txdDelay_eq (s : State) : s.txdDelay = match s.link.txd with
    | some frame => frame.remaining
    | none => 0 := by
  unfold State.txdDelay
  cases s.link.txd <;> rfl

theorem State.hasFrame_iff (s : State) : s.hasFrame = true ↔ s.resetPart ≠ .replyTaken ∧
    (s.link.notices ≠ [] ∨ s.link.replies ≠ [] ∨
      (s.isOpen = true ∧ s.resetPart = .none ∧ ∃ e ∈ s.events.queue, e.sent = false)) := by
  simp [State.hasFrame, or_assoc, and_assoc]

/-! ### A timed command -/

theorem exec_timed {c : Instr} (h : c ∈ timers ∨ c = .transmitNextFrame) (s : State) :
    ∃ act, exec c s = .next (s.atDue c act) := by
  cases c with
  | startUpEnd | keepaliveExpiry | gapTimeout | journalWaitExpiry | missingPulseExpiry | resetRequest | transmitNextFrame =>
    exact ⟨_, rfl⟩
  | firingAgeDiscard k => exact ⟨_, rfl⟩
  | gateExpiry t | gateResume t | armedStartEffect t | releaseStartEffect t | trackActionTick t => exact ⟨_, rfl⟩
  | edgeAcceptance l => exact ⟨_, rfl⟩
  | _ => simp [timers] at h

/-- A held firing is discarded to BLOCKED or ARMED, by what its line shows (R90). -/
theorem State.discardFiring_fired {s : State} {k : TriggerId} {g : TriggerConfig} {f c : Stamp} {overrun : Bool}
    (h : s.triggers[k] = ⟨.fired f c overrun, some g⟩) :
    s.discardFiring k = { s with
      triggers := s.triggers.set k ⟨if g.sense.activeLevel = some s.lines[g.line].sensedLevel then .blocked else .armed, some g⟩ } := by
  have hconfig : s.triggers[k].config = some g := by rw [h]
  rw [← State.latchAfterFiring_eq, ← State.setLatch_eq hconfig]
  unfold State.discardFiring
  rw [h]

/-- Settles O42: each delay as its rule says, and the clock that counts it. -/
theorem timedActionsAreDueAtTheirMoment : Obligations.TimedActionsAreDueAtTheirMoment := by
  unfold Obligations.TimedActionsAreDueAtTheirMoment
  refine ⟨fun s x hpre hrun => ⟨fun hx => ⟨State.afterPeriods_periodsTo hpre hrun hx,
      fun n hn => State.afterPeriods_ne_of_lt hpre hrun hx hn⟩, State.periodsTo_of_not_ahead⟩,
    fun s t => ⟨s.due_armedStartEffect t, s.due_releaseStartEffect t, s.due_gateExpiry t, s.due_gateResume t,
      State.due_trackActionTick_none, fun c o hc => ?_⟩,
    fun s l => ?_, fun s k straps => ?_, fun s c hmem hnone => ?_, fun s k g f c overrun d hk hdue => ?_⟩
  · intro period next hmem hperiod hends hstep
    refine State.due_trackActionTick hc (State.nextPoint_eq_of_least ?_ hperiod hends hstep)
    rcases hmem with rfl | ⟨e, he, rfl⟩ | hnext
    · exact .inl rfl
    · exact .inr (.inl ⟨e, he, rfl⟩)
    · obtain ⟨st, hst, rfl⟩ := Option.map_eq_some_iff.mp hnext
      exact .inr (.inr ⟨st, hst, rfl⟩)
  · intro accepted
    have haccepted (m : LineId) : accepted m = s.edgeDelay m := (s.edgeDelay_eq m).symm
    clear_value accepted
    obtain rfl := funext haccepted
    exact ⟨State.edgeTurn_none, fun d hd => ⟨State.edgeTurn_first hd, State.edgeTurn_waits hd⟩⟩
  · intro idle toSend
    have hidle : idle = s.txdDelay := s.txdDelay_eq.symm
    have hsend : toSend ↔ s.hasFrame = true := s.hasFrame_iff.symm
    clear_value idle toSend
    subst hidle
    rw [hsend]
    exact ⟨s.due_firingAgeDiscard k, s.due_missingPulseExpiry, rfl, rfl, s.due_startUpEnd, s.due_gapTimeout,
      fun h => if_pos h, fun h => if_neg h, rfl, rfl⟩
  · obtain ⟨act, hact⟩ := exec_timed hmem s
    rw [hact, State.atDue_none hnone]
  · have hk' : (s.afterPeriods d).triggers[k] = ⟨.fired f c overrun, some g⟩ := by rw [State.afterPeriods_triggers]; exact hk
    have hd : s.due (.firingAgeDiscard k) = some (s.periodsTo (c + BitVec.ofNat 48 (2 ^ 46))) := by
      rw [State.due_firingAgeDiscard, hk]
    have hexec : exec (.firingAgeDiscard k) s = .next ((s.afterPeriods d).discardFiring k) :=
      congrArg Host.Outcome.next (State.atDue_of_dueAfter hdue _)
    rw [State.discardFiring_fired hk', State.afterPeriods_triggers] at hexec
    simp only [← Sense.activeLevel_eq_some_iff]
    refine ⟨Option.some.inj (hdue.1.symm.trans hd), fun hstands => ?_, fun hnot => ?_⟩
    · rw [hexec, if_pos (by rw [State.afterPeriods_lines]; exact hstands)]
    · rw [hexec, if_neg (by rw [State.afterPeriods_lines]; exact hnot)]

end Sys2Proof.Machine
end
